-- ==== Sys2Proof/Word.lean ====
section
/-!
DEFINITION. The words of the FBU: 32-bit command and register words, complex words over any scalars and those of
`NUM_B64`, and the numerics record.
-/

namespace Sys2Proof

/-- A command word or a register value, 32 bits (`10_state.md`, `30_encoding.md` R50). -/
abbrev Word := BitVec 32

/-- The bit pattern of one scalar of `NUM_B64`, `WS = 64` (`40_numeric_datapath.md` R71). -/
abbrev Scalar := BitVec 64

/-- The type `C` of pairs `(re, im)` over a scalar type `S` (`40_numeric_datapath.md` R78): the content of one word of
`XMEM` or `TWROM` (`10_state.md` R11, R12). -/
structure Cx (S : Type) where
  re : S
  im : S
deriving DecidableEq, Repr, Inhabited

/-- A complex word of `NUM_B64`. -/
abbrev CWord := Cx Scalar

/-- The five operations of the numerics record `NUM` (`40_numeric_datapath.md` R70), total functions on the scalars of
which no law is assumed. -/
structure Num (S : Type) where
  fadd : S → S → S
  fsub : S → S → S
  fmul : S → S → S
  fneg : S → S
  /-- `fdivN x L` is `x` divided by `2^L`. R70 gives it for `0 ≤ L ≤ 21`; its values for a larger `L` mean nothing (log
  entry 26). -/
  fdivN : S → Nat → S
deriving Inhabited

/-- Two records have the same operations on R70's domain: `fdivN` is compared for `0 ≤ L ≤ 21` alone (log entry 26). -/
def Num.agrees {S : Type} (a b : Num S) : Prop :=
  a.fadd = b.fadd ∧ a.fsub = b.fsub ∧ a.fmul = b.fmul ∧ a.fneg = b.fneg ∧
    ∀ x l, l ≤ 21 → a.fdivN x l = b.fdivN x l

/-- The whole numerics record (`40_numeric_datapath.md` R70): scalars, their width, their encoding as bits, and the
operations. -/
structure NumRecord where
  S : Type
  WS : Nat
  enc : S → BitVec WS
  dec : BitVec WS → S
  dec_enc : ∀ x, dec (enc x) = x
  enc_dec : ∀ b, enc (dec b) = b
  ops : Num S

/-- The record whose scalars are their own bit patterns. -/
def NumRecord.ofBits (ws : Nat) (ops : Num (BitVec ws)) : NumRecord where
  S := BitVec ws
  WS := ws
  enc := id
  dec := id
  dec_enc := fun _ => rfl
  enc_dec := fun _ => rfl
  ops := ops

end Sys2Proof
end

