-- ==== Sys2Proof/Machine/Binary64.lean ====
section
/-!
DEFINITION. `NUM_B64`: IEEE 754 binary64 on bit patterns, round to nearest, ties to even
(`40_numeric_datapath.md` R71 to R77).

A finite pattern is `(−1)^sign · mag · 2^−1074` with `mag` a natural (R71), so sums, products and quotients by `2^L`
are exact integers over a power of two, and one function rounds them (R72).
-/

namespace Sys2Proof.Machine.Binary64

/-- The sign bit `b[63]`. -/
def sign (x : Scalar) : Bool := x.getLsbD 63

/-- The exponent field `b[62:52]`. -/
def expo (x : Scalar) : Nat := x.toNat / 2 ^ 52 % 2 ^ 11

/-- The fraction field `b[51:0]`. -/
def frac (x : Scalar) : Nat := x.toNat % 2 ^ 52

def isNaN (x : Scalar) : Bool := expo x == 2047 && frac x != 0
def isInf (x : Scalar) : Bool := expo x == 2047 && frac x == 0
def isZero (x : Scalar) : Bool := expo x == 0 && frac x == 0
def isFinite (x : Scalar) : Bool := expo x != 2047

/-- The magnitude of a finite pattern in units of `2^−1074` (R71): `f` for a subnormal, `(2^52 + f) · 2^(e−1)` for a
normal. -/
def mag (x : Scalar) : Nat :=
  if expo x = 0 then frac x else (2 ^ 52 + frac x) * 2 ^ (expo x - 1)

/-- The value of a finite pattern in units of `2^−1074`. -/
def value (x : Scalar) : Int := if sign x then -(mag x : Int) else (mag x : Int)

/-- The pattern with the given sign and low 63 bits. -/
def withSign (sg : Bool) (low : Nat) : Scalar :=
  BitVec.ofNat 64 (if sg then 2 ^ 63 + low else low)

/-- Zero with the given sign. -/
def zero (sg : Bool) : Scalar := withSign sg 0

/-- The low 63 bits of an infinity: exponent field 2047, fraction 0. -/
def infLow : Nat := 2047 * 2 ^ 52

/-- Infinity with the given sign. -/
def inf (sg : Bool) : Scalar := withSign sg infLow

/-- The canonical NaN `0x7FF8000000000000` (R71). -/
def cNaN : Scalar := 0x7FF8000000000000

/-- The NaN with the sign and fraction bits of `r`; a zero fraction, which would be an infinity, gives the quiet NaN of
that sign. Every NaN pattern arises (R75, `NANPOLICY = draw`). -/
def nanOf (r : BitVec 53) : Scalar :=
  let f := r.toNat % 2 ^ 52
  withSign (r.getLsbD 52) (infLow + if f = 0 then 2 ^ 51 else f)

/-- `m / 2^u` rounded to the nearest natural, ties to even. -/
def roundShift (m u : Nat) : Nat :=
  let q := m / 2 ^ u
  let r := m % 2 ^ u
  if 2 ^ u < 2 * r ∨ (2 * r = 2 ^ u ∧ q % 2 = 1) then q + 1 else q

/-- How many low bits of `m`, a magnitude in units of `2^−(1074 + k)`, the rounding drops: enough to keep 53
significant bits, and at least `k`, since the results are multiples of `2^−1074` (R72, gradual underflow). -/
def dropped (m k : Nat) : Nat := max (Nat.log2 m - 52) k

/-- The low 63 bits of the positive real `m · 2^−(1074 + k)` rounded as R72 says. A result of `2^1024` or more, which
is what every real from `2^1024 − 2^970` on rounds to, is the infinity. -/
def roundMag (m k : Nat) : Nat :=
  let u := dropped m k
  min ((u - k) * 2 ^ 52 + roundShift m u) infLow

/-- `RN` (R72) of the real with sign `sg` and magnitude `m · 2^−(1074 + k)`. -/
def RN (sg : Bool) (m k : Nat) : Scalar := withSign sg (roundMag m k)

/-- `fneg` (R74): flips bit 63 of every pattern. -/
def fneg (x : Scalar) : Scalar := x ^^^ 0x8000000000000000

/-- `fadd` (R73), `nan` being `NaNresult` (R75). -/
def fadd (nan x y : Scalar) : Scalar :=
  if isNaN x || isNaN y then nan
  else if isInf x && isInf y && sign x != sign y then nan
  else if isInf x then x
  else if isInf y then y
  else
    let r := value x + value y
    if r = 0 then (if isZero x && x == y then x else zero false)
    else RN (decide (r < 0)) r.natAbs 0

/-- `fsub` (R73). -/
def fsub (nan x y : Scalar) : Scalar :=
  if isNaN x || isNaN y then nan else fadd nan x (fneg y)

/-- `fmul` (R74): exact product, one rounding. -/
def fmul (nan x y : Scalar) : Scalar :=
  if isNaN x || isNaN y then nan
  else if (isZero x && isInf y) || (isInf x && isZero y) then nan
  else
    let sg := sign x != sign y
    if isInf x || isInf y then inf sg
    else if isZero x || isZero y then zero sg
    else RN sg (mag x * mag y) 1074

/-- `fdivN` (R74): the correctly rounded quotient by `2^L`. -/
def fdivN (nan x : Scalar) (l : Nat) : Scalar :=
  if isNaN x then nan
  else if isInf x || isZero x then x
  else RN (sign x) (mag x) l

/-- `NUM_B64` with `NaNresult = nan`. -/
def num (nan : Scalar) : Num Scalar where
  fadd := fadd nan
  fsub := fsub nan
  fmul := fmul nan
  fneg := fneg
  fdivN := fdivN nan

end Sys2Proof.Machine.Binary64

/-- The record is `NUM_B64`, whichever NaN it returns (`40_numeric_datapath.md` R71 to R75). DESIGN CHOICE (log entry 26):
R4 does not say when two records count as the same. Counted as `NUM_B64` is a record on patterns, each its own
interchange encoding, whose operations are those of `NUM_B64` with one constant NaN, `fdivN` being compared on R70's
domain `0 ≤ L ≤ 21` alone; and no other: not a record given with NaN results that depend on the operands (payload
propagation is `Numerics.b64 .draw`, `92_eei_decisions.md` D7), nor one on other scalars that behaves like it. -/
def Sys2Proof.NumRecord.isB64 (R : Sys2Proof.NumRecord) : Prop :=
  ∃ nan ops, Sys2Proof.Machine.Binary64.isNaN nan = true ∧ ops.agrees (Sys2Proof.Machine.Binary64.num nan) ∧
    R = Sys2Proof.NumRecord.ofBits 64 ops
end

