-- ==== Sys2Proof/Config.lean ====
section
/-!
DEFINITION. The implementation parameters of `00_scope.md` R4 as plain data, and the free values of the model.

`Config` selects the parameters of an FBU whose scalars are bit patterns, of any width; it is the part of `State` that
no step changes (log entry 5). The constants without a body are what the spec leaves open: nothing in Lean can evaluate
them or prove a value of them (log entries 7, 9, 10).
-/

namespace Sys2Proof

/-- Which numerics record of bit patterns an FBU is built with (`00_scope.md` R4, `NUM` and `NUMFMT`). -/
inductive NumFormat where
  /-- `NUMFMT = 0`: a record of which only R70 is known, of width `WS = ws`. -/
  | other (ws : Nat)
  /-- `NUMFMT = 1`: `NUM_B64`, IEEE 754 binary64. -/
  | b64
deriving DecidableEq, Repr

/-- `WS`, the width of a scalar (`40_numeric_datapath.md` R70, R71). -/
def NumFormat.ws : NumFormat → Nat
  | .other ws => ws
  | .b64 => 64

/-- `NUMFMT` as the 4-bit code readable in `ID` (`10_state.md` R16). -/
def NumFormat.code : NumFormat → BitVec 4
  | .other _ => 0
  | .b64 => 1

/-- Which NaN an arithmetic operation returns: the parameter `NANPOLICY` (`40_numeric_datapath.md` R75). -/
inductive NanPolicy where
  | canonical
  | draw
deriving DecidableEq, Repr

/-- The parameters of an FBU whose scalars are bit patterns, as plain data (`00_scope.md` R4). -/
structure Config where
  /-- `LOGNMAX − 1`. -/
  logNMaxPred : Fin 21
  numFmt : NumFormat
  nanPolicy : NanPolicy
deriving DecidableEq, Repr

namespace Config

/-- The defaults of R4: `LOGNMAX = 10`, `NUM_B64`, canonical NaNs. -/
def default : Config := { logNMaxPred := 9, numFmt := .b64, nanPolicy := .canonical }

/-- A configuration of `NUM_B64`. -/
def b64 (p : Fin 21) (policy : NanPolicy) : Config := { logNMaxPred := p, numFmt := .b64, nanPolicy := policy }

/-- The scalars: every scalar is its bit pattern, `enc` and `dec` being a bijection (`40_numeric_datapath.md` R70). -/
abbrev Scalar (c : Config) : Type := BitVec c.numFmt.ws

/-- The vectors of the sample port, `2·WS` bits (`20_memory.md` R32). -/
abbrev Port (c : Config) : Type := BitVec (c.numFmt.ws + c.numFmt.ws)

/-- `CSVER`, the command-set version (`00_scope.md` R4). -/
def csver : BitVec 8 := 1

/-- FREE VALUE (log entry 7): what the `n`-th read of a never-written word of `XMEM` returns, for each `WS`
(`10_state.md` R21, `93_implementation_defined.md` U1). -/
opaque freeWord : (ws : Nat) → Nat → Cx (BitVec ws)

/-- FREE VALUE (log entry 9): the sign bit and the 52 fraction bits of the `n`-th NaN drawn under
`NANPOLICY = draw` (`40_numeric_datapath.md` R75, `93_implementation_defined.md` U2). -/
opaque freeNaN : Nat → BitVec 53

/-- The operations on patterns of `ws` bits that are not those of `NUM_B64` (`00_scope.md` R4: `NUMFMT = 0` is every
other record). -/
abbrev OtherNum (ws : Nat) : Type := { ops : Num (BitVec ws) // ¬ (NumRecord.ofBits ws ops).isB64 }

/-- FREE VALUE (log entry 10): the operations behind `NUMFMT = 0`, for each `WS`, of which the spec says only that they
are total functions (`40_numeric_datapath.md` R70) and not those of `NUM_B64`. -/
opaque otherNum (ws : Nat) [Inhabited (OtherNum ws)] : OtherNum ws

/-- FREE VALUE (log entry 10): `RN(cos(2π·n/2^21))` for `0 ≤ n ≤ 2^20` behind `NUMFMT = 0`, for each `WS`
(`41_twiddle_rom.md` R91 with an `RN` the spec does not give). -/
opaque otherCos : (ws : Nat) → Nat → BitVec ws

end Config

end Sys2Proof
end

