-- ==== Sys2Proof/Machine/Twiddle.lean ====
section
/-!
DEFINITION. The contents of the twiddle-factor ROM (`41_twiddle_rom.md`) for every `LOGNMAX`: the exact twiddle factors
of R91, their roundings to binary64, and their roundings behind `NUMFMT = 0`.

For `LOGNMAX ≤ 10` the ROM is a sub-table of the printed table (R160). For a larger `LOGNMAX` the entries whose
fraction of a turn the table has are the table's (R93), and every other entry is R91's formula, evaluated in fixed
point with 256 fraction bits and rounded once (log entry 11).
-/

namespace Sys2Proof.Machine

/-- The exact twiddle factor of the fraction `j/2^p`, `cos(2πj/2^p) − i·sin(2πj/2^p)` (R91). -/
noncomputable def exactTwiddle (p j : Nat) : Cx ℝ where
  re := Real.cos (2 * Real.pi * j / 2 ^ p)
  im := -Real.sin (2 * Real.pi * j / 2 ^ p)

/-- `rom` is a `TWROM` for `LOGNMAX = p` as R91 asks: each component of an entry is one function, the record's rounding,
of its exact real value. -/
def RomRounds {S : Type} (p : Nat) (rom : Nat → Cx S) : Prop :=
  ∃ RN : ℝ → S, ∀ j, j < 2 ^ (p - 1) → rom j = { re := RN (exactTwiddle p j).re, im := RN (exactTwiddle p j).im }

/-- Row `j` of R160. -/
def tableRow (j : Nat) : CWord := twRows.getD j { re := 0, im := 0 }

/-- The fraction bits of the fixed-point numbers below. -/
def fixBits : Nat := 256

/-- `π · 2^256`, rounded down. -/
def piFix : Nat := 0x3243f6a8885a308d313198a2e03707344a4093822299f31d0082efa98ec4e6c89

/-- The alternating Taylor sum `t − t·x²/((k+1)(k+2)) + …` in fixed point, `fuel` terms. -/
def taylor : Nat → Nat → Nat → Nat → Nat
  | 0, _, _, _ => 0
  | fuel + 1, k, t, xx =>
    t - taylor fuel (k + 2) (t * xx / 2 ^ fixBits / ((k + 1) * (k + 2))) xx

/-- The terms taken: beyond them a term is 0 in fixed point for an angle of at most an eighth of a turn. -/
def taylorTerms : Nat := 45

/-- `2π·j/2^p` in fixed point. -/
def angleFix (p j : Nat) : Nat := 2 * piFix * j / 2 ^ p

def cosFix (p j : Nat) : Nat :=
  taylor taylorTerms 0 (2 ^ fixBits) (angleFix p j * angleFix p j / 2 ^ fixBits)

def sinFix (p j : Nat) : Nat :=
  taylor taylorTerms 1 (angleFix p j) (angleFix p j * angleFix p j / 2 ^ fixBits)

/-- A non-negative fixed-point number rounded to binary64 (R72). -/
def roundFix (v : Nat) : Scalar := Binary64.RN false (v * 2 ^ (1074 - fixBits)) 0

/-- `(RN cos, RN sin)` of `2π·j/2^p` in the first quarter turn, `j ≤ 2^(p−2)`: beyond the eighth turn by
`cos θ = sin(π/2 − θ)`. -/
def quarterTurn (p j : Nat) : Scalar × Scalar :=
  if j ≤ 2 ^ (p - 3) then (roundFix (cosFix p j), roundFix (sinFix p j))
  else (roundFix (sinFix p (2 ^ (p - 2) - j)), roundFix (cosFix p (2 ^ (p - 2) - j)))

/-- R91's entry `j` for `LOGNMAX = p`, computed: `re = RN(cos)`, `im = RN(−sin)`, an exact zero stored as `+0`. Used for
entries that are no exact zero; the second quarter turn by R95. -/
def computedEntry (p j : Nat) : CWord :=
  if j ≤ 2 ^ (p - 2) then
    { re := (quarterTurn p j).1, im := Binary64.fneg (quarterTurn p j).2 }
  else
    { re := Binary64.fneg (quarterTurn p (2 ^ (p - 1) - j)).1
      im := Binary64.fneg (quarterTurn p (2 ^ (p - 1) - j)).2 }

/-- `TWROM[j]` of `NUM_B64` for `LOGNMAX = p` (R91, R93, R160). -/
def romB64 (p j : Nat) : CWord :=
  if p ≤ 10 then tableRow (j * 2 ^ (10 - p))
  else if j % 2 ^ (p - 10) = 0 then tableRow (j / 2 ^ (p - 10))
  else computedEntry p j

/-- The point of the half turn `0 .. 2^20` with the same cosine as the point `n` of the turn, in units of `2π/2^21`. -/
def halfTurn (n : Nat) : Nat := if n ≤ 2 ^ 20 then n else 2 ^ 21 - n

/-- `TWROM[j]` behind `NUMFMT = 0` for `LOGNMAX = p`: R91's formula with an `RN` the spec does not give, `−sin θ` being
`cos(θ + π/2)` (log entry 10). -/
def otherEntry (ws p j : Nat) : Cx (BitVec ws) where
  re := Config.otherCos ws (halfTurn (j * 2 ^ (21 - p)))
  im := Config.otherCos ws (halfTurn (j * 2 ^ (21 - p) + 2 ^ 19))

end Sys2Proof.Machine
end

