-- ==== Sys2Proof/Machine/Numerics.lean ====
section
/-!
DEFINITION. The parameters of `00_scope.md` R4 as arguments of the machine. A value of `Build` is a legal choice of them:
a configuration outside the legal values, which is no FBU (`93_implementation_defined.md` U10), cannot be written.
-/

namespace Sys2Proof

open Sys2Proof.Machine

/-- `NUM_EXACT` (`40_numeric_datapath.md` R83). -/
noncomputable def Machine.Exact.num : Num ℝ where
  fadd x y := x + y
  fsub x y := x - y
  fmul x y := x * y
  fneg x := -x
  fdivN x l := x / 2 ^ l

/-- `NUM` with the parameters that follow it, over scalars `S` and sample-port vectors `V`. -/
inductive Numerics : Type → Type → Type 1 where
  /-- `NUM_B64` under a `NANPOLICY`: `NUMFMT = 1`. -/
  | b64 (policy : NanPolicy) : Numerics Scalar (BitVec (64 + 64))
  /-- Every other record that meets `40_numeric_datapath.md` R70: `NUMFMT = 0`. Which records count as
  `NUM_B64`: log entry 26. -/
  | record (R : NumRecord) (other : ¬ R.isB64) : Numerics R.S (BitVec (R.WS + R.WS))
  /-- `NUM_EXACT`: `NUMFMT = 0`. It has no bit encoding, so the sample port carries the pairs of numbers themselves (log
  entry 22). -/
  | exact (ops : Num ℝ) (is : ops.agrees Machine.Exact.num) : Numerics ℝ (Cx ℝ)

/-- A complex word on the sample port: `im` in the high half (`20_memory.md` R33). -/
def Machine.packWord {ws : Nat} (v : Cx (BitVec ws)) : BitVec (ws + ws) := v.im ++ v.re

/-- The complex word of a sample-port vector: `re` in the low half (`20_memory.md` R32). -/
def Machine.unpackWord {ws : Nat} (v : BitVec (ws + ws)) : Cx (BitVec ws) where
  re := v.extractLsb' 0 ws
  im := v.extractLsb' ws ws

/-- `NUM_B64` at the `n`-th arithmetic operation of the run (`40_numeric_datapath.md` R75). -/
def Machine.b64At (policy : NanPolicy) (n : Nat) : Num Scalar :=
  match policy with
  | .canonical => Binary64.num Binary64.cNaN
  | .draw => Binary64.num (Binary64.nanOf (Config.freeNaN n))

/-- `NUM_B64` negates `+0` to `−0`, so a record in which negation is the identity is another one. -/
theorem Machine.not_isB64_of_fneg {R : NumRecord} (h : ∀ x, R.ops.fneg x = x) : ¬ R.isB64 := by
  rintro ⟨nan, ops, -, ⟨-, -, -, hneg, -⟩, rfl⟩
  have h0 : Binary64.fneg 0 = 0 := (congrFun hneg 0).symm.trans (h (0 : Scalar))
  exact absurd h0 (by decide)

/-- That every width has operations other than those of `NUM_B64`, which the constant `Config.otherNum` asks for. Nothing
depends on which ones are shown here. -/
@[reducible] def Machine.someOther (ws : Nat) : Inhabited (Config.OtherNum ws) :=
  ⟨⟨{ fadd := fun x _ => x, fsub := fun x _ => x, fmul := fun x _ => x, fneg := id, fdivN := fun x _ => x },
    not_isB64_of_fneg fun _ => rfl⟩⟩

/-- The operations behind `NUMFMT = 0` (log entry 10). -/
def Machine.otherOps (ws : Nat) : Config.OtherNum ws := @Config.otherNum ws (someOther ws)

namespace Numerics

/-- `NUMFMT` as the 4-bit code readable in `ID` (`10_state.md` R16): it follows `NUM`. -/
def code {S V : Type} : Numerics S V → BitVec 4
  | .b64 _ => 1
  | .record _ _ => 0
  | .exact _ _ => 0

/-- Whether arithmetic operations draw their NaN results: `NUM_B64` under `NANPOLICY = draw`
(`40_numeric_datapath.md` R75). -/
def draws {S V : Type} : Numerics S V → Bool
  | .b64 policy => policy == .draw
  | .record _ _ => false
  | .exact _ _ => false

/-- The operations at the `n`-th arithmetic operation of the run. -/
def num {S V : Type} (N : Numerics S V) (n : Nat) : Num S :=
  match N with
  | .b64 policy => b64At policy n
  | .record R _ => R.ops
  | .exact ops _ => ops

/-- A complex word as a vector of the sample port: the bits of `im` high, those of `re` low (`20_memory.md` R33). -/
def pack {S V : Type} (N : Numerics S V) (v : Cx S) : V :=
  match N with
  | .b64 _ => packWord v
  | .record R _ => packWord { re := R.enc v.re, im := R.enc v.im }
  | .exact _ _ => v

/-- The complex word of a vector of the sample port (`20_memory.md` R32). -/
def unpack {S V : Type} (N : Numerics S V) (v : V) : Cx S :=
  match N with
  | .b64 _ => unpackWord v
  | .record R _ => { re := R.dec (unpackWord v).re, im := R.dec (unpackWord v).im }
  | .exact _ _ => v

/-- `rom` is a legal `TWROM` for `LOGNMAX = p` (`00_scope.md` R4; `41_twiddle_rom.md` R90, R91, R94): for `NUM_B64` the
correctly rounded table (log entry 11), for `NUM_EXACT` the exact twiddle factors, for another record their rounding. -/
def RomLegal {S V : Type} (N : Numerics S V) (p : Nat) (rom : Nat → Cx S) : Prop :=
  match N with
  | .b64 _ => ∀ j, j < 2 ^ (p - 1) → rom j = romB64 p j
  | .record _ _ => RomRounds p rom
  | .exact _ _ => ∀ j, j < 2 ^ (p - 1) → rom j = exactTwiddle p j

end Numerics

/-- The parameters an FBU is built with (`00_scope.md` R4), over scalars `S` and sample-port vectors `V`. `CSVER` is the
constant `Config.csver`, and `BYTE_ORDER` is no part of the FBU. -/
structure Build (S V : Type) where
  /-- `LOGNMAX − 1`: the legal range `1 ≤ LOGNMAX ≤ 21` is the range of the field. -/
  logNMaxPred : Fin 21
  /-- `NUM`, with `NUMFMT`, `NANPOLICY` and the layout of the sample port. -/
  numerics : Numerics S V
  /-- `TWROM[j]` (`41_twiddle_rom.md` R90). -/
  rom : Nat → Cx S
  rom_legal : numerics.RomLegal (logNMaxPred.val + 1) rom
  /-- What the `n`-th read of a never-written word returns (`93_implementation_defined.md` U1). -/
  freeWord : Nat → Cx S

namespace Build

variable {S V : Type}

/-- `LOGNMAX`, log2 of the sample-memory depth. -/
def logNMax (B : Build S V) : Nat := B.logNMaxPred.val + 1

/-- `NMAX = 2^LOGNMAX`, the sample-memory depth in complex words. -/
def nmax (B : Build S V) : Nat := 2 ^ B.logNMax

/-- `NUMFMT` (`10_state.md` R16). -/
def numFmtCode (B : Build S V) : BitVec 4 := B.numerics.code

/-- Whether arithmetic operations draw their NaN results (`40_numeric_datapath.md` R75). -/
def draws (B : Build S V) : Bool := B.numerics.draws

/-- The operations used by the `n`-th arithmetic operation of the run (`40_numeric_datapath.md` R75): the same throughout
unless NaN results are drawn. -/
def numAt (B : Build S V) (n : Nat) : Num S := B.numerics.num n

/-- A complex word as a vector of the sample port (`20_memory.md` R33). -/
def pack (B : Build S V) (v : Cx S) : V := B.numerics.pack v

/-- The complex word of a vector of the sample port (`20_memory.md` R32). -/
def unpack (B : Build S V) (v : V) : Cx S := B.numerics.unpack v

end Build

namespace Machine

variable {S V : Type}

/-- The address `k << (LOGNMAX − s)` of the twiddle at position `k` of stage `s` (`41_twiddle_rom.md` R92). -/
def romIndex (B : Build S V) (k st : Nat) : Nat := k * 2 ^ (B.logNMax - st)

/-- `TW(k, s)` (`41_twiddle_rom.md` R92). The ROM is part of the build, so no step writes it (R96). -/
def tw (B : Build S V) (k st : Nat) : Cx S := B.rom (romIndex B k st)

end Machine

end Sys2Proof
end

