-- ==== Sys2Proof/Laws/Legal.lean ====
section
/-!
SUPPORT. That the ROM behind `NUMFMT = 0` is legal: it rounds the exact twiddle factors.
-/

namespace Sys2Proof.Machine

/-- Points of the half turn are told apart by their cosines. -/
theorem cos_halfTurn_inj {m n : Nat} (hm : m ≤ 2 ^ 20) (hn : n ≤ 2 ^ 20)
    (h : Real.cos (2 * Real.pi * m / 2 ^ 21) = Real.cos (2 * Real.pi * n / 2 ^ 21)) : m = n := by
  have mem : ∀ k : Nat, k ≤ 2 ^ 20 → 2 * Real.pi * k / 2 ^ 21 ∈ Set.Icc 0 Real.pi := by
    intro k hk
    have hk' : (k : ℝ) ≤ 2 ^ 20 := by exact_mod_cast hk
    refine ⟨by positivity, ?_⟩
    rw [div_le_iff₀ (by positivity)]
    nlinarith [Real.pi_pos]
  have := Real.injOn_cos (mem m hm) (mem n hn) h
  have hpi := Real.pi_pos.ne'
  field_simp at this
  exact_mod_cast this

/-- The cosine of a point of the turn is that of its image in the half turn. -/
theorem cos_halfTurn {n : Nat} (h : n ≤ 2 ^ 21) :
    Real.cos (2 * Real.pi * halfTurn n / 2 ^ 21) = Real.cos (2 * Real.pi * n / 2 ^ 21) := by
  unfold halfTurn
  split
  · rfl
  · rw [Nat.cast_sub h]
    have : 2 * Real.pi * ((2 ^ 21 : Nat) - (n : ℝ)) / 2 ^ 21 = 2 * Real.pi - 2 * Real.pi * n / 2 ^ 21 := by
      push_cast; ring
    rw [this, Real.cos_two_pi_sub]

/-- The ROM behind `NUMFMT = 0` rounds the exact twiddle factors (`41_twiddle_rom.md` R91). -/
theorem otherEntry_rounds (ws : Nat) (p : Fin 21) : RomRounds (p.val + 1) (otherEntry ws (p.val + 1)) := by
  classical
  let RN : ℝ → BitVec ws := fun x =>
    if h : ∃ n : Nat, n ≤ 2 ^ 20 ∧ Real.cos (2 * Real.pi * n / 2 ^ 21) = x then Config.otherCos ws h.choose
    else Config.otherCos ws 0
  have key : ∀ n : Nat, n ≤ 2 ^ 21 → Config.otherCos ws (halfTurn n) = RN (Real.cos (2 * Real.pi * n / 2 ^ 21)) := by
    intro n hn
    have hle : halfTurn n ≤ 2 ^ 20 := by unfold halfTurn; split <;> omega
    have hex : ∃ m : Nat, m ≤ 2 ^ 20 ∧ Real.cos (2 * Real.pi * m / 2 ^ 21) = Real.cos (2 * Real.pi * n / 2 ^ 21) :=
      ⟨halfTurn n, hle, cos_halfTurn hn⟩
    have heq : hex.choose = halfTurn n :=
      cos_halfTurn_inj hex.choose_spec.1 hle (hex.choose_spec.2.trans (cos_halfTurn hn).symm)
    show _ = dite _ _ _
    rw [dif_pos hex, heq]
  refine ⟨RN, fun j hj => ?_⟩
  have hp := p.isLt
  have hsplit : 2 ^ (p.val + 1) * 2 ^ (21 - (p.val + 1)) = 2 ^ 21 := by rw [← pow_add]; congr 1; omega
  have hsplit' : (2 : ℝ) ^ (p.val + 1) * 2 ^ (21 - (p.val + 1)) = 2 ^ 21 := by exact_mod_cast hsplit
  have hlt : j * 2 ^ (21 - (p.val + 1)) < 2 ^ 20 := by
    have : 2 ^ p.val * 2 ^ (21 - (p.val + 1)) = 2 ^ 20 := by rw [← pow_add]; congr 1; omega
    rw [← this]
    exact Nat.mul_lt_mul_of_pos_right hj (Nat.two_pow_pos _)
  have hangle : 2 * Real.pi * ((j * 2 ^ (21 - (p.val + 1)) : Nat) : ℝ) / 2 ^ 21 = 2 * Real.pi * j / 2 ^ (p.val + 1) := by
    rw [← hsplit']; push_cast; field_simp
  have hquarter : 2 * Real.pi * ((j * 2 ^ (21 - (p.val + 1)) + 2 ^ 19 : Nat) : ℝ) / 2 ^ 21 =
      2 * Real.pi * j / 2 ^ (p.val + 1) + Real.pi / 2 := by
    rw [← hangle]; push_cast; ring
  have hre := key _ (by omega : j * 2 ^ (21 - (p.val + 1)) ≤ 2 ^ 21)
  have him := key _ (by omega : j * 2 ^ (21 - (p.val + 1)) + 2 ^ 19 ≤ 2 ^ 21)
  rw [hangle] at hre
  rw [hquarter, Real.cos_add_pi_div_two] at him
  exact congrArg₂ Cx.mk hre him

end Sys2Proof.Machine
end

