-- ==== Sys2Proof/Machine/Complex.lean ====
section
/-!
DEFINITION. The complex operations and the butterfly over any numerics record (`40_numeric_datapath.md` R78 to R82).

Under `NANPOLICY = draw` every arithmetic operation may return a different NaN (R75), so the operations of one engine
step take a family of records, one for each scalar operation of the step in the order it is written in. Where nothing
is drawn the family is constant (`steady`).
-/

namespace Sys2Proof.Machine

variable {S : Type}

/-- The family that uses one record throughout. -/
def steady (num : Num S) : Nat → Num S := fun _ => num

/-- The family from its `k`-th operation on. -/
def later (ν : Nat → Num S) (k : Nat) : Nat → Num S := fun i => ν (k + i)

/-- `cadd` (R78). -/
def cadd (ν : Nat → Num S) (a b : Cx S) : Cx S :=
  { re := (ν 0).fadd a.re b.re, im := (ν 1).fadd a.im b.im }

/-- `csub` (R78). -/
def csub (ν : Nat → Num S) (a b : Cx S) : Cx S :=
  { re := (ν 0).fsub a.re b.re, im := (ν 1).fsub a.im b.im }

/-- `cmul` (R79): the twiddle first; four products, then one subtraction and one addition. -/
def cmul (ν : Nat → Num S) (w o : Cx S) : Cx S :=
  { re := (ν 2).fsub ((ν 0).fmul w.re o.re) ((ν 1).fmul w.im o.im)
    im := (ν 5).fadd ((ν 3).fmul w.re o.im) ((ν 4).fmul w.im o.re) }

/-- `cconj` (R80). Negation is no arithmetic operation and draws nothing. -/
def cconj (num : Num S) (a : Cx S) : Cx S :=
  { re := a.re, im := num.fneg a.im }

/-- `cscale` (R81). -/
def cscale (ν : Nat → Num S) (a : Cx S) (l : Nat) : Cx S :=
  { re := (ν 0).fdivN a.re l, im := (ν 1).fdivN a.im l }

/-- How many arithmetic operations a butterfly and a scaling make (R82, R81). -/
def bfOps : Nat := 10
def scaleOps : Nat := 2

/-- `BF` (R82): `(X_k, X_{k+N/2})`. The product is formed once and used twice. -/
def BF (ν : Nat → Num S) (e o w : Cx S) : Cx S × Cx S :=
  let t := cmul ν w o
  (cadd (later ν 6) e t, csub (later ν 8) e t)

end Sys2Proof.Machine
end

