-- ==== Sys2Proof/Syntax.lean ====
section
/-!
DEFINITION. The command set: one constructor per row of `spec/opcode_table.json` (`30_encoding.md` R53).
-/

namespace Sys2Proof

/-- The ten commands. Operands are unsigned naturals (`00_scope.md` R6, `30_encoding.md` R52); that they fit their
fields is `Instr.wellFormed`. -/
inductive Instr where
  /-- `NOP` (R100). -/
  | nop
  /-- `SETN n` (R101). -/
  | setn (n : Nat)
  /-- `CLRERR` (R102). -/
  | clrerr
  /-- `BITREV` (R120). -/
  | bitrev
  /-- `BFLY s, a` (R110): stage, index of the first word of the pair. -/
  | bfly (st a : Nat)
  /-- `STAGE s` (R111). -/
  | stage (st : Nat)
  /-- `CONJ` (R121). -/
  | conj
  /-- `SCALE` (R122). -/
  | scale
  /-- `FFT` (R130). -/
  | fft
  /-- `IFFT` (R131). -/
  | ifft
deriving DecidableEq, Repr

end Sys2Proof
end

