-- ==== Sys2Proof/WellFormed.lean ====
section
/-!
DEFINITION. Which commands can be encoded: every operand fits its field (`30_encoding.md` R52, R56). An operand that
fits and is out of range for the machine is well formed; the command itself raises the error (R55).
-/

namespace Sys2Proof

/-- What an assembler accepts (R56): `n` fits 22 bits, `s` 5 bits, `a` 21 bits. -/
def Instr.wellFormed : Instr → Bool
  | .nop => true
  | .setn n => decide (n < 2 ^ 22)
  | .clrerr => true
  | .bitrev => true
  | .bfly st a => decide (st < 2 ^ 5) && decide (a < 2 ^ 21)
  | .stage st => decide (st < 2 ^ 5)
  | .conj => true
  | .scale => true
  | .fft => true
  | .ifft => true

end Sys2Proof
end

