-- ==== Sys2Proof/Decode.lean ====
section
/-!
DEFINITION. Decoding of command words, total on all `2^32` words (`30_encoding.md` R54), and after it the encoder
(`30_encoding.md` R51, R52, R53, R56). The command port carries whole 32-bit words and the FBU has no bytes
(`20_memory.md` R35, R36), so there is no byte order to undo.
-/

namespace Sys2Proof

/-- Why a word does not decode (`30_encoding.md` R55). Both lead to `ILLEGAL_CMD`. -/
inductive DecodeError where
  /-- The opcode is one of the 54 unassigned ones. -/
  | unassignedOpcode
  /-- A bit of a `zero` field of the opcode's format is 1. -/
  | nonzeroZeroField
deriving DecidableEq, Repr

/-- `w[hi : lo]` as a natural (`00_scope.md` R6). -/
def bits (w : Word) (hi lo : Nat) : Nat := w.toNat / 2 ^ lo % 2 ^ (hi + 1 - lo)

/-- The command of a word whose `zero` field has the value `z`: illegal unless `z` is 0. -/
def ifZero (z : Nat) (i : Instr) : Except DecodeError Instr :=
  if z = 0 then .ok i else .error .nonzeroZeroField

/-- `decode` of R54. -/
def decode (w : Word) : Except DecodeError Instr :=
  let op := bits w 31 26
  if op = 0x00 then ifZero (bits w 25 0) .nop
  else if op = 0x01 then ifZero (bits w 25 22) (.setn (bits w 21 0))
  else if op = 0x02 then ifZero (bits w 25 0) .clrerr
  else if op = 0x08 then ifZero (bits w 25 0) .bitrev
  else if op = 0x09 then .ok (.bfly (bits w 25 21) (bits w 20 0))
  else if op = 0x0A then ifZero (bits w 20 0) (.stage (bits w 25 21))
  else if op = 0x0B then ifZero (bits w 25 0) .conj
  else if op = 0x0C then ifZero (bits w 25 0) .scale
  else if op = 0x10 then ifZero (bits w 25 0) .fft
  else if op = 0x11 then ifZero (bits w 25 0) .ifft
  else .error .unassignedOpcode

/-- The opcode `w[31:26]` of a command (R53). -/
def opcode : Instr → Nat
  | .nop => 0x00
  | .setn _ => 0x01
  | .clrerr => 0x02
  | .bitrev => 0x08
  | .bfly _ _ => 0x09
  | .stage _ => 0x0A
  | .conj => 0x0B
  | .scale => 0x0C
  | .fft => 0x10
  | .ifft => 0x11

/-- The operand fields of a command in their places (R51, R52): `n` in bits 21:0, `s` in bits 25:21, `a` in bits
20:0, zeros elsewhere. -/
def fields : Instr → Nat
  | .nop => 0
  | .setn n => n
  | .clrerr => 0
  | .bitrev => 0
  | .bfly st a => st * 2 ^ 21 + a
  | .stage st => st * 2 ^ 21
  | .conj => 0
  | .scale => 0
  | .fft => 0
  | .ifft => 0

/-- `encode = (op << 26) | fields` (R56). Meant for well-formed commands. -/
def encode (i : Instr) : Word := BitVec.ofNat 32 (opcode i * 2 ^ 26 + fields i)

/-- A row of the opcode table as mask and pattern (`30_encoding.md` R54, `opcode_table.json`). -/
structure OpcodeRow where
  pattern : Word
  mask : Word
deriving DecidableEq, Repr

/-- The word selects the row when `w & mask = match`. -/
def OpcodeRow.selects (r : OpcodeRow) (w : Word) : Bool := w &&& r.mask == r.pattern

/-- The ten rows of `opcode_table.json`, in its order, with the masks R54 lists. -/
def opcodeRows : List OpcodeRow :=
  [ { pattern := 0x00000000, mask := 0xFFFFFFFF },
    { pattern := 0x04000000, mask := 0xFFC00000 },
    { pattern := 0x08000000, mask := 0xFFFFFFFF },
    { pattern := 0x20000000, mask := 0xFFFFFFFF },
    { pattern := 0x24000000, mask := 0xFC000000 },
    { pattern := 0x28000000, mask := 0xFC1FFFFF },
    { pattern := 0x2C000000, mask := 0xFFFFFFFF },
    { pattern := 0x30000000, mask := 0xFFFFFFFF },
    { pattern := 0x40000000, mask := 0xFFFFFFFF },
    { pattern := 0x44000000, mask := 0xFFFFFFFF } ]

/-- The place of a command's row in `opcodeRows`. -/
def rowIndex : Instr → Nat
  | .nop => 0
  | .setn _ => 1
  | .clrerr => 2
  | .bitrev => 3
  | .bfly _ _ => 4
  | .stage _ => 5
  | .conj => 6
  | .scale => 7
  | .fft => 8
  | .ifft => 9

/-- The command word whose low `nbits` bits are those of `w` (bit 0 the least significant, as the table numbers
them); every higher bit is 0. One command is one 32-bit word (R50), so the table gives every row 32 bits. -/
def tableWord (nbits w : Nat) : Word := BitVec.ofNat 32 (w % 2 ^ nbits)

/-- The command the decoder reads from an opcode-table word, none where it refuses. -/
def decodeTableWord (nbits w : Nat) : Option Instr :=
  match decode (tableWord nbits w) with
  | .ok i => some i
  | .error _ => none

end Sys2Proof
end

