-- ==== Sys2Proof/Machine/State.lean ====
section
/-!
DEFINITION. The state of the FBU (`10_state.md` R10) with the host's side of its ports, the reasons a step can stop,
and the state after reset.
-/

namespace Sys2Proof.Machine

/-- What the engine is doing (`10_state.md` R17, `SEQ.phase`). -/
inductive Phase where
  | idle
  /-- Conjugating before the transform. -/
  | cnj1
  /-- Bit-reversal permutation. -/
  | rev
  /-- Butterfly stage `s`. -/
  | bfy
  /-- Conjugating after the transform. -/
  | cnj2
  /-- Scaling by `1/N`. -/
  | scl
deriving DecidableEq, Repr

/-- Which multi-phase command the current phase belongs to (`10_state.md` R17, `SEQ.macro`). -/
inductive Mac where
  | none
  | fft
  | ifft
deriving DecidableEq, Repr

/-- The sequencer `SEQ = (phase, macro, s, j)` (`10_state.md` R17). -/
structure Seq where
  phase : Phase
  mac : Mac
  /-- The stage number while `phase = BFY`, 0 otherwise. -/
  s : Nat
  /-- The element or butterfly counter inside the phase. -/
  j : Nat
deriving DecidableEq, Repr

/-- `(IDLE, NONE, 0, 0)`. -/
def Seq.rest : Seq := { phase := .idle, mac := .none, s := 0, j := 0 }

/-- The sample memory as the words written since the last reset: index and content, indices strictly rising. The unit
is one complex word, the smallest the FBU has (`20_memory.md` R35, R36; log entry 6). A word that is not listed is
unspecified (`10_state.md` R21; log entry 7). -/
abbrev Memory (S : Type) := List (Nat × Cx S)

/-- A host transaction (`00_scope.md` R6, R8); `V` holds the vectors of the sample port. -/
inductive Transaction (V : Type) where
  /-- `CmdIssue(w)` (`30_encoding.md` R58). -/
  | cmdIssue (w : Word)
  /-- `RegRead(r)` (`10_state.md` R18). -/
  | regRead (r : BitVec 2)
  /-- `SampleRead(i)` (`20_memory.md` R33). -/
  | sampleRead (i : Nat)
  /-- `SampleWrite(i, v)` (`20_memory.md` R32). -/
  | sampleWrite (i : Nat) (v : V)
  /-- `Reset` (`70_reset_and_hazards.md` R210). -/
  | reset
deriving DecidableEq, Repr

/-- A transaction the host is going to make, and how many engine steps pass before it presents it (log entry 2). The
spec lets the host's transactions and the engine's steps interleave in any order (`48_sequencer_microsteps.md` R170);
this number is the plain data that says which of the two agents moves. -/
structure Request (V : Type) where
  wait : Nat
  txn : Transaction V
deriving DecidableEq, Repr

/-- What a transaction returned to the host (log entry 3). -/
inductive Reply (V : Type) where
  /-- The 32 bits a `RegRead` returned. -/
  | reg (v : Word)
  /-- The vector a `SampleRead` returned. -/
  | sample (v : V)
deriving DecidableEq, Repr

/-- Why a step stops. The FBU's own errors are no faults: they are next states (`60_exceptions.md` R191). Both
reasons below are for states no run from reset reaches, of which the spec says nothing. -/
inductive Fault where
  /-- Raised by the engine step when `SEQ`, `NLEN` or both are outside the combinations and ranges of
  `48_sequencer_microsteps.md` R171 to R176. SAFE: the model stops where the spec says nothing (log entry 12). -/
  | badSequencer
  /-- Raised by the length guard when `NLEN` is a power of two above `NMAX`, a value `SETN` never stores
  (`42_control_commands.md` R101). SAFE: the active frame would reach words that do not exist (log entry 12). -/
  | frameBeyondMemory
deriving DecidableEq, Repr

/-- Why an instruction has no meaning. -/
inductive Refusal where
  /-- Raised by an arm of `exec` for an instruction that has no meaning yet. SAFE. Every instruction has one, so
  nothing raises it. -/
  | notModelled (mnemonic : String)
deriving DecidableEq, Repr

/-- The FBU over scalars `S` and port vectors `V`: R10's tuple `(XMEM, NLEN, ERR, ERRCODE, ERRCMD, SEQ)`, then the
model's own fields. -/
structure Fbu (S V : Type) where
  /-- `XMEM` (R11). -/
  xmem : Memory S
  /-- `NLEN`, the transform length `N` (R13). -/
  nlen : BitVec 22
  /-- `STATUS.ERR`, the sticky error flag (R14). -/
  err : Bool
  /-- `STATUS.ERRCODE` (R14). -/
  errcode : BitVec 4
  /-- `ERRCMD`, the offending command word (R15). -/
  errcmd : Word
  /-- `SEQ`, the sequencer (R17). -/
  seq : Seq
  /-- THE MODEL'S OWN: how many free values have been drawn (log entry 8). -/
  free : Nat
  /-- THE MODEL'S OWN: the host transactions to come, in the order they take effect (log entry 2). -/
  pending : List (Request V)
  /-- THE MODEL'S OWN: what the host has read back, oldest first (log entry 3). -/
  replies : List (Reply V)
deriving DecidableEq, Repr

/-- An outcome of the FBU. -/
abbrev Out (S V : Type) := Host.Outcome (Fbu S V) Fault Refusal

/-- The FBU right after `Reset` (`10_state.md` R21), with nothing asked by the host yet. The model's own fields: log
entries 2, 3, 8, 21. -/
def Fbu.reset {S V : Type} : Fbu S V where
  xmem := []
  nlen := 0
  err := false
  errcode := 0
  errcmd := 0
  seq := Seq.rest
  free := 0
  pending := []
  replies := []

/-- The state of the machine: a configuration, and the FBU over the scalars and the sample port it has. -/
structure State where
  /-- THE MODEL'S OWN: the configuration, which no step changes (`00_scope.md` R4; log entry 5). -/
  cfg : Config
  /-- The FBU. -/
  fbu : Fbu cfg.Scalar cfg.Port
deriving DecidableEq, Repr

/-- The machine right after `Reset` in the default configuration (`00_scope.md` R4). -/
def State.reset : State where
  cfg := Config.default
  fbu := Fbu.reset

end Sys2Proof.Machine
end

