-- ==== Sys2Proof/Machine/Build.lean ====
section
/-!
DEFINITION. The builds: from the parameters of `00_scope.md` R4 to what the machine computes with. `build` gives the
build of a configuration, `recordBuild` that of any numerics record, ROM and depth taken as arguments.
-/

namespace Sys2Proof.Machine

/-- `NUM` of a configuration, with what follows it (`00_scope.md` R4). -/
def formatNumerics (f : NumFormat) (policy : NanPolicy) : Numerics (BitVec f.ws) (BitVec (f.ws + f.ws)) :=
  match f with
  | .other ws =>
    .record (NumRecord.ofBits ws (otherOps ws).val) (otherOps ws).property
  | .b64 => .b64 policy

/-- `TWROM[j]` of a configuration with `LOGNMAX = p` (`41_twiddle_rom.md` R90, R91). -/
def formatRom (f : NumFormat) (p j : Nat) : Cx (BitVec f.ws) :=
  match f with
  | .other ws => otherEntry ws p j
  | .b64 => romB64 p j

/-- The ROM of every configuration is legal. -/
theorem formatRom_legal (f : NumFormat) (policy : NanPolicy) (p : Fin 21) :
    (formatNumerics f policy).RomLegal (p.val + 1) (formatRom f (p.val + 1)) := by
  cases f with
  | other ws => exact otherEntry_rounds ws p
  | b64 => exact fun _ _ => rfl

/-- The build of a configuration. -/
def build (c : Config) : Build c.Scalar c.Port where
  logNMaxPred := c.logNMaxPred
  numerics := formatNumerics c.numFmt c.nanPolicy
  rom := formatRom c.numFmt (c.logNMaxPred.val + 1)
  rom_legal := formatRom_legal c.numFmt c.nanPolicy c.logNMaxPred
  freeWord := Config.freeWord c.numFmt.ws

/-- The build of a numerics record other than `NUM_B64`, with the depth, the ROM and the contents of never-written words
as arguments (`00_scope.md` R4, `40_numeric_datapath.md` R70). The ROM has to be a rounding of the exact twiddle factors
(`41_twiddle_rom.md` R91). -/
def recordBuild (R : NumRecord) (other : ¬ R.isB64) (p : Fin 21) (rom : Nat → Cx R.S)
    (legal : RomRounds (p.val + 1) rom) (freeWord : Nat → Cx R.S) : Build R.S (BitVec (R.WS + R.WS)) where
  logNMaxPred := p
  numerics := .record R other
  rom := rom
  rom_legal := legal
  freeWord := freeWord

/-- An outcome of the FBU as an outcome of the machine, whose configuration no step changes. -/
def lift (c : Config) (o : Out c.Scalar c.Port) : Host.Outcome State Fault Refusal :=
  match o with
  | .next f => .next { cfg := c, fbu := f }
  | .fault r => .fault r
  | .refused r => .refused r

/-- The machine doing what an FBU of its configuration does. -/
def State.under (s : State) (run : Build s.cfg.Scalar s.cfg.Port → Fbu s.cfg.Scalar s.cfg.Port →
    Out s.cfg.Scalar s.cfg.Port) : Host.Outcome State Fault Refusal :=
  lift s.cfg (run (build s.cfg) s.fbu)

end Sys2Proof.Machine
end

