-- ==== Sys2Proof/Machine/Flags.lean ====
section
/-!
DEFINITION. The flags and the four registers as the register port shows them (`10_state.md` R13 to R18), and the error
codes (`60_exceptions.md` R190). The FBU has no condition codes and no floating-point flags (`10_state.md` R14, R19).
-/

namespace Sys2Proof.Machine

variable {S V : Type}

/-- The errors of R190. -/
inductive CmdError where
  | invalidLength
  | lengthRange
  | illegalCmd
  | badOperand
deriving DecidableEq, Repr

/-- The code of an error (R190). Codes 5 to 15 are never written. -/
def errorCode : CmdError → BitVec 4
  | .invalidLength => 1
  | .lengthRange => 2
  | .illegalCmd => 3
  | .badOperand => 4

/-- `STATUS.BUSY`: not stored, `SEQ.phase ≠ IDLE` (`10_state.md` R14). -/
def Fbu.busy (s : Fbu S V) : Bool := s.seq.phase != .idle

/-- Register 0, `ID` (`10_state.md` R16). -/
def idReg (B : Build S V) : Word :=
  (0 : BitVec 12) ++ B.numFmtCode ++ Config.csver ++ (0 : BitVec 3) ++ BitVec.ofNat 5 B.logNMax

/-- Register 1, `STATUS` (`10_state.md` R14, R18). -/
def statusReg (s : Fbu S V) : Word :=
  (0 : BitVec 24) ++ s.errcode ++ (0 : BitVec 2) ++ BitVec.ofBool s.err ++ BitVec.ofBool s.busy

/-- Register 2, `NLEN` (`10_state.md` R13, R18). -/
def nlenReg (s : Fbu S V) : Word := (0 : BitVec 10) ++ s.nlen

/-- What `RegRead(r)` returns (`10_state.md` R18): all four numbers are assigned, so it cannot fail. -/
def regValue (B : Build S V) (s : Fbu S V) (r : BitVec 2) : Word :=
  if r = 0 then idReg B
  else if r = 1 then statusReg s
  else if r = 2 then nlenReg s
  else s.errcmd

end Sys2Proof.Machine
end

