-- ==== Sys2Proof/Machine/Ops.lean ====
section
/-!
DEFINITION. The named operations over the sample memory and the registers: reading and writing a word of `XMEM`,
taking an error, returning from it, reset, and the acceptance checks every command makes.
-/

namespace Sys2Proof.Machine

variable {S V : Type}

/-- The content of word `i`, none if nothing has written it since reset. -/
def memRead : Memory S → Nat → Option (Cx S)
  | [], _ => none
  | (k, v) :: m, i => if i = k then some v else memRead m i

/-- Word `i` written with `v`, in its place in the rising order. Every value is listed: an unlisted word has none. -/
def memWrite : Memory S → Nat → Cx S → Memory S
  | [], i, v => [(i, v)]
  | (k, x) :: m, i, v =>
    if i < k then (i, v) :: (k, x) :: m
    else if i = k then (i, v) :: m
    else (k, x) :: memWrite m i v

/-- Every index of the memory is at least `lo`, below `hi`, and the indices strictly rise. -/
def memRising (lo hi : Nat) : Memory S → Bool
  | [] => true
  | (k, _) :: m => decide (lo ≤ k) && decide (k < hi) && memRising (k + 1) hi m

/-- The canonical form of a memory of `nmax` words: indices strictly rising and below `nmax`. -/
def memWf (nmax : Nat) (m : Memory S) : Bool := memRising 0 nmax m

/-- What word `i` of `XMEM` is known to hold: none for a word never written since reset. -/
def Fbu.word (s : Fbu S V) (i : Nat) : Option (Cx S) := memRead s.xmem i

/-- Reading `XMEM[i]`: a word never written returns a fresh free value at each read (`10_state.md` R21,
`93_implementation_defined.md` U1; log entry 7). -/
def Fbu.load (B : Build S V) (s : Fbu S V) (i : Nat) : Cx S × Fbu S V :=
  match s.word i with
  | some v => (v, s)
  | none => (B.freeWord s.free, { s with free := s.free + 1 })

/-- `XMEM[i] <- v`. -/
def Fbu.store (s : Fbu S V) (i : Nat) (v : Cx S) : Fbu S V :=
  { s with xmem := memWrite s.xmem i v }

/-- The numerics records for the arithmetic operations of the coming step (`40_numeric_datapath.md` R70, R75). -/
def Fbu.nums (B : Build S V) (s : Fbu S V) : Nat → Num S := fun k => B.numAt (s.free + k)

/-- The state after a step that made `k` arithmetic operations, each of which may have drawn a NaN (R75; log entry
9). Nothing is drawn unless the build draws. -/
def Fbu.drawn (B : Build S V) (s : Fbu S V) (k : Nat) : Fbu S V :=
  if B.draws then { s with free := s.free + k } else s

/-- The transform length `N` (`10_state.md` R13). -/
def Fbu.len (s : Fbu S V) : Nat := s.nlen.toNat

/-- Error entry `raise e(w)` (`60_exceptions.md` R191): three writes and nothing else. -/
def Fbu.raise (s : Fbu S V) (e : CmdError) (w : Word) : Fbu S V :=
  { s with err := true, errcode := errorCode e, errcmd := w }

/-- The return from an error (`60_exceptions.md` R194, `42_control_commands.md` R102). -/
def Fbu.clearError (s : Fbu S V) : Fbu S V :=
  { s with err := false, errcode := 0, errcmd := 0 }

/-- `Reset` (`70_reset_and_hazards.md` R210, `10_state.md` R21): the spec's state is that of `Fbu.reset`, every word
of `XMEM` unspecified again. The model's own fields stay. -/
def Fbu.resetOp (s : Fbu S V) : Fbu S V :=
  { s with
    xmem := (Fbu.reset (S := S) (V := V)).xmem
    nlen := (Fbu.reset (S := S) (V := V)).nlen
    err := (Fbu.reset (S := S) (V := V)).err
    errcode := (Fbu.reset (S := S) (V := V)).errcode
    errcmd := (Fbu.reset (S := S) (V := V)).errcmd
    seq := (Fbu.reset (S := S) (V := V)).seq }

/-- Checks 1 and 2 of `60_exceptions.md` R193, for every command but `CLRERR`: held while the engine runs (no state
change, `20_memory.md` R34), dropped while `ERR = 1` (R192); otherwise `run`. -/
def accepted (s : Fbu S V) (run : Fbu S V → Out S V) : Out S V :=
  if s.busy then .next s
  else if s.err then .next s
  else run s

/-- Error entry as the outcome of command `i`: `ERRCMD` takes the command's word, which decoding determines
(`30_encoding.md` R54; log entry 15). -/
def failed (s : Fbu S V) (e : CmdError) (i : Instr) : Out S V := .next (s.raise e (encode i))

end Sys2Proof.Machine
end

