-- ==== Sys2Proof/Machine/Operands.lean ====
section
/-!
DEFINITION. Index arithmetic (`40_numeric_datapath.md` R84 to R86), the length guard and the operand checks of the
datapath commands (`42_control_commands.md` R103, `43_butterfly_commands.md` R110, R111).
-/

namespace Sys2Proof.Machine

variable {S V : Type}

/-- `ispow2` (R85): 0 is no power of two. -/
def ispow2 (n : Nat) : Bool := n != 0 && n &&& (n - 1) == 0

/-- `log2` (R85): the position of the one bit set. -/
def log2 (n : Nat) : Nat := Nat.log2 n

/-- `brev_L` (R86): bit `b` of `i` becomes bit `L − 1 − b`. -/
def brev : Nat → Nat → Nat
  | 0, _ => 0
  | l + 1, i => i % 2 * 2 ^ l + brev l (i / 2)

/-- `half = 2^(s−1)`. -/
def half (st : Nat) : Nat := 2 ^ (st - 1)

/-- The position `k` of butterfly `j` in its half-block (R84). -/
def pairPos (st j : Nat) : Nat := j % half st

/-- The first word `a = g·m + k` of butterfly `j` of stage `s` (R84). -/
def pairFirst (st j : Nat) : Nat := j / half st * 2 ^ st + pairPos st j

/-- The second word `b = a + half` (R84). -/
def pairSecond (st a : Nat) : Nat := a + half st

/-- `s` is a stage of a transform of length `2^L`: `1 ≤ s ≤ L`. -/
def legalStage (l st : Nat) : Bool := decide (1 ≤ st) && decide (st ≤ l)

/-- `a` is the first word of a pair of stage `s`: `a < N` and `a[s−1] = 0` (R110). -/
def legalFirst (n st a : Nat) : Bool := decide (a < n) && !a.testBit (st - 1)

/-- The acceptance of datapath command `i` up to and with the length guard (`60_exceptions.md` R193 checks 1, 2, 6;
R103): `run N L` for a power of two `N`. A power of two above `NMAX`, which `SETN` never stores, stops (log entry
12). -/
def guarded (B : Build S V) (i : Instr) (s : Fbu S V) (run : Nat → Nat → Out S V) : Out S V :=
  accepted s fun s =>
    if ispow2 s.len then
      if s.len ≤ B.nmax then run s.len (log2 s.len) else .fault .frameBeyondMemory
    else failed s .invalidLength i

end Sys2Proof.Machine
end

