-- ==== Sys2Proof/Machine/Datapath.lean ====
section
/-!
DEFINITION. The elementary operations of the engine on the sample memory, one engine step's worth each
(`48_sequencer_microsteps.md` R172 to R175). Each reads all its operands before it writes a result
(`20_memory.md` R43).
-/

namespace Sys2Proof.Machine

variable {S V : Type}

/-- One butterfly of stage `st` on the words `a` and `a + half` (`43_butterfly_commands.md` R110). -/
def butterfly (B : Build S V) (st a : Nat) (s : Fbu S V) : Fbu S V :=
  let b := pairSecond st a
  let e := s.load B a
  let o := e.2.load B b
  let y := BF (o.2.nums B) e.1 o.1 (tw B (a % half st) st)
  ((o.2.drawn B bfOps).store a y.1).store b y.2

/-- Index `j` of the permutation: the words `j` and `brev_L(j)` are swapped when `j` is the smaller
(`44_permute_conj_scale_commands.md` R120). -/
def revBody (B : Build S V) (l j : Nat) (s : Fbu S V) : Fbu S V :=
  if j < brev l j then
    let x := s.load B j
    let y := x.2.load B (brev l j)
    (y.2.store j y.1).store (brev l j) x.1
  else s

/-- Butterfly number `j` of stage `st` (`43_butterfly_commands.md` R111). -/
def bfyBody (B : Build S V) (st j : Nat) (s : Fbu S V) : Fbu S V := butterfly B st (pairFirst st j) s

/-- Word `j` conjugated (`44_permute_conj_scale_commands.md` R121). -/
def cnjBody (B : Build S V) (j : Nat) (s : Fbu S V) : Fbu S V :=
  let x := s.load B j
  x.2.store j (cconj (B.numAt 0) x.1)

/-- Word `j` divided by `N = 2^L` (`44_permute_conj_scale_commands.md` R122). -/
def sclBody (B : Build S V) (l j : Nat) (s : Fbu S V) : Fbu S V :=
  let x := s.load B j
  (x.2.drawn B scaleOps).store j (cscale (x.2.nums B) x.1 l)

end Sys2Proof.Machine
end

