-- ==== Sys2Proof/Machine/Engine.lean ====
section
/-!
DEFINITION. The sequencer and the engine's step (`48_sequencer_microsteps.md` R170 to R176).
-/

namespace Sys2Proof.Machine

variable {S V : Type}

/-- Loading `SEQ` at the acceptance of a multi-step command (R171): nothing but `SEQ` changes. -/
def started (s : Fbu S V) (p : Phase) (m : Mac) (st : Nat) : Out S V :=
  .next { s with seq := { phase := p, mac := m, s := st, j := 0 } }

/-- `PhaseEnd` (R176): the `SEQ` after the last step of a phase, for `L`. None for the combinations that never
occur. -/
def phaseEnd (l : Nat) (q : Seq) : Option Seq :=
  match q.mac, q.phase with
  | .none, .rev => some Seq.rest
  | .none, .bfy => some Seq.rest
  | .none, .cnj1 => some Seq.rest
  | .none, .scl => some Seq.rest
  | .none, .cnj2 => none
  | .fft, .rev => some (if 1 ≤ l then { phase := .bfy, mac := .fft, s := 1, j := 0 } else Seq.rest)
  | .fft, .bfy => some (if q.s < l then { phase := .bfy, mac := .fft, s := q.s + 1, j := 0 } else Seq.rest)
  | .fft, .cnj1 => none
  | .fft, .cnj2 => none
  | .fft, .scl => none
  | .ifft, .cnj1 => some { phase := .rev, mac := .ifft, s := 0, j := 0 }
  | .ifft, .rev =>
    some (if 1 ≤ l then { phase := .bfy, mac := .ifft, s := 1, j := 0 }
      else { phase := .cnj2, mac := .ifft, s := 0, j := 0 })
  | .ifft, .bfy =>
    some (if q.s < l then { phase := .bfy, mac := .ifft, s := q.s + 1, j := 0 }
      else { phase := .cnj2, mac := .ifft, s := 0, j := 0 })
  | .ifft, .cnj2 => some { phase := .scl, mac := .ifft, s := 0, j := 0 }
  | .ifft, .scl => some Seq.rest
  | _, .idle => none

/-- How many steps the current phase has: `N/2` butterflies, or `N` words. -/
def phaseLength (n : Nat) (q : Seq) : Nat := if q.phase = .bfy then n / 2 else n

/-- The stage and the counter are in the ranges R172 to R175 give them. -/
def seqInRange (n l : Nat) (q : Seq) : Bool :=
  (if q.phase = .bfy then legalStage l q.s else q.s == 0) && decide (q.j < phaseLength n q)

/-- `SEQ` and `NLEN` are as they can be while a command runs. -/
def runnable (B : Build S V) (s : Fbu S V) : Bool :=
  ispow2 s.len && decide (s.len ≤ B.nmax) && seqInRange s.len (log2 s.len) s.seq

/-- The work of one step of the current phase. -/
def phaseBody (B : Build S V) (l : Nat) (q : Seq) (s : Fbu S V) : Fbu S V :=
  match q.phase with
  | .idle => s
  | .cnj1 => cnjBody B q.j s
  | .rev => revBody B l q.j s
  | .bfy => bfyBody B q.s q.j s
  | .cnj2 => cnjBody B q.j s
  | .scl => sclBody B l q.j s

/-- The `SEQ` after one step of the current phase, `fin` being the one after its last step. -/
def advance (n : Nat) (q fin : Seq) : Seq :=
  if q.j + 1 < phaseLength n q then { q with j := q.j + 1 } else fin

/-- One engine step (R170, R172 to R176). Asked for only while `SEQ.phase ≠ IDLE`. -/
def engineStep (B : Build S V) (s : Fbu S V) : Out S V :=
  if runnable B s then
    match phaseEnd (log2 s.len) s.seq with
    | none => .fault .badSequencer
    | some fin => .next { phaseBody B (log2 s.len) s.seq s with seq := advance s.len s.seq fin }
  else .fault .badSequencer

end Sys2Proof.Machine
end

