-- ==== Sys2Proof/Machine/Butterfly.lean ====
section
/-!
DEFINITION. The butterfly commands `BFLY`, `STAGE` (`43_butterfly_commands.md`), over any build and as meanings of the
machine.
-/

namespace Sys2Proof.Machine

variable {S V : Type}

/-- `BFLY s, a` (R110): one butterfly, complete within its `CmdIssue` step. -/
def bflyOf (B : Build S V) (st a : Nat) (s : Fbu S V) : Out S V :=
  guarded B (.bfly st a) s fun n l =>
    if legalStage l st then
      if legalFirst n st a then .next (butterfly B st a s)
      else failed s .badOperand (.bfly st a)
    else failed s .badOperand (.bfly st a)

/-- `STAGE s` (R111): its acceptance; the engine then makes the `N/2` butterflies (R171, R173). -/
def stageOf (B : Build S V) (st : Nat) (s : Fbu S V) : Out S V :=
  guarded B (.stage st) s fun _ l =>
    if legalStage l st then started s .bfy .none st else failed s .badOperand (.stage st)

/-- `BFLY` (R110). -/
def execBfly (st a : Nat) (s : State) : Host.Outcome State Fault Refusal := s.under fun B f => bflyOf B st a f

/-- `STAGE` (R111). -/
def execStage (st : Nat) (s : State) : Host.Outcome State Fault Refusal := s.under fun B f => stageOf B st f

end Sys2Proof.Machine
end

