-- ==== Sys2Proof/Machine/Control.lean ====
section
/-!
DEFINITION. The control commands `NOP`, `SETN`, `CLRERR` (`42_control_commands.md`), over any build and as meanings of
the machine.
-/

namespace Sys2Proof.Machine

variable {S V : Type}

/-- `NOP` (R100). -/
def nopOf (_B : Build S V) (s : Fbu S V) : Out S V := accepted s fun s => .next s

/-- `SETN n` (R101): any `n ≤ NMAX` is stored, a power of two or not; `XMEM` is not touched. -/
def setnOf (B : Build S V) (n : Nat) (s : Fbu S V) : Out S V :=
  accepted s fun s =>
    if n ≤ B.nmax then .next { s with nlen := BitVec.ofNat 22 n }
    else failed s .lengthRange (.setn n)

/-- `CLRERR` (R102): the one command executed while `ERR = 1`. It too is held while the engine runs. -/
def clrerrOf (_B : Build S V) (s : Fbu S V) : Out S V :=
  if s.busy then .next s else .next s.clearError

/-- `NOP` (R100). -/
def execNop (s : State) : Host.Outcome State Fault Refusal := s.under fun B f => nopOf B f

/-- `SETN` (R101). -/
def execSetn (n : Nat) (s : State) : Host.Outcome State Fault Refusal := s.under fun B f => setnOf B n f

/-- `CLRERR` (R102). -/
def execClrerr (s : State) : Host.Outcome State Fault Refusal := s.under fun B f => clrerrOf B f

end Sys2Proof.Machine
end

