-- ==== Sys2Proof/Machine/Permute.lean ====
section
/-!
DEFINITION. The commands `BITREV`, `CONJ`, `SCALE` (`44_permute_conj_scale_commands.md`), over any build and as meanings
of the machine: their acceptance; the engine then runs the phase (`48_sequencer_microsteps.md` R171).
-/

namespace Sys2Proof.Machine

variable {S V : Type}

/-- `BITREV` (R120). -/
def bitrevOf (B : Build S V) (s : Fbu S V) : Out S V := guarded B .bitrev s fun _ _ => started s .rev .none 0

/-- `CONJ` (R121). -/
def conjOf (B : Build S V) (s : Fbu S V) : Out S V := guarded B .conj s fun _ _ => started s .cnj1 .none 0

/-- `SCALE` (R122). -/
def scaleOf (B : Build S V) (s : Fbu S V) : Out S V := guarded B .scale s fun _ _ => started s .scl .none 0

/-- `BITREV` (R120). -/
def execBitrev (s : State) : Host.Outcome State Fault Refusal := s.under fun B f => bitrevOf B f

/-- `CONJ` (R121). -/
def execConj (s : State) : Host.Outcome State Fault Refusal := s.under fun B f => conjOf B f

/-- `SCALE` (R122). -/
def execScale (s : State) : Host.Outcome State Fault Refusal := s.under fun B f => scaleOf B f

end Sys2Proof.Machine
end

