-- ==== Sys2Proof/Machine/Transform.lean ====
section
/-!
DEFINITION. The transform commands `FFT`, `IFFT` (`45_transform_commands.md`), over any build and as meanings of the
machine: their acceptance; the engine then runs their phases (`48_sequencer_microsteps.md` R171, R176).
-/

namespace Sys2Proof.Machine

variable {S V : Type}

/-- `FFT` (R130). -/
def fftOf (B : Build S V) (s : Fbu S V) : Out S V := guarded B .fft s fun _ _ => started s .rev .fft 0

/-- `IFFT` (R131): the guard comes before the first conjugation. -/
def ifftOf (B : Build S V) (s : Fbu S V) : Out S V := guarded B .ifft s fun _ _ => started s .cnj1 .ifft 0

/-- `FFT` (R130). -/
def execFft (s : State) : Host.Outcome State Fault Refusal := s.under fun B f => fftOf B f

/-- `IFFT` (R131). -/
def execIfft (s : State) : Host.Outcome State Fault Refusal := s.under fun B f => ifftOf B f

end Sys2Proof.Machine
end

