-- ==== Sys2Proof/Machine/Dispatch.lean ====
section
/-!
DEFINITION. `exec`: the execution of a decoded command (`30_encoding.md` R58), one arm per constructor of `Instr`.
-/

namespace Sys2Proof.Machine

def exec (i : Instr) (s : State) : Host.Outcome State Fault Refusal :=
  match i with
  | .nop => Sys2Proof.Machine.execNop s
  | .setn n => Sys2Proof.Machine.execSetn n s
  | .clrerr => Sys2Proof.Machine.execClrerr s
  | .bitrev => Sys2Proof.Machine.execBitrev s
  | .bfly st a => Sys2Proof.Machine.execBfly st a s
  | .stage st => Sys2Proof.Machine.execStage st s
  | .conj => Sys2Proof.Machine.execConj s
  | .scale => Sys2Proof.Machine.execScale s
  | .fft => Sys2Proof.Machine.execFft s
  | .ifft => Sys2Proof.Machine.execIfft s

end Sys2Proof.Machine
end

