-- ==== Sys2Proof/Machine/Port.lean ====
section
/-!
DEFINITION. The four ports and the two agents: what each host transaction does (`00_scope.md` R6), and which agent
moves next (`20_memory.md` R34, R39; `48_sequencer_microsteps.md` R170).
-/

namespace Sys2Proof.Machine

variable {S V : Type}

/-- The execution of a decoded command by an FBU of any build (`30_encoding.md` R58). `exec` is this at the build of the
state's configuration. -/
def execOf (B : Build S V) (i : Instr) (s : Fbu S V) : Out S V :=
  match i with
  | .nop => nopOf B s
  | .setn n => setnOf B n s
  | .clrerr => clrerrOf B s
  | .bitrev => bitrevOf B s
  | .bfly st a => bflyOf B st a s
  | .stage st => stageOf B st s
  | .conj => conjOf B s
  | .scale => scaleOf B s
  | .fft => fftOf B s
  | .ifft => ifftOf B s

/-- A word that does not decode (`30_encoding.md` R55, R58). -/
def illegal (w : Word) (s : Fbu S V) : Out S V :=
  accepted s fun s => .next (s.raise .illegalCmd w)

/-- `CmdIssue(w)` (`30_encoding.md` R58). -/
def cmdIssue (B : Build S V) (w : Word) (s : Fbu S V) : Out S V :=
  match decode w with
  | .ok i => execOf B i s
  | .error _ => illegal w s

/-- `RegRead(r)` (`10_state.md` R18): the reply, and no other change. -/
def regRead (B : Build S V) (r : BitVec 2) (s : Fbu S V) : Fbu S V :=
  { s with replies := s.replies ++ [.reg (regValue B s r)] }

/-- The word index on the sample port: it has `LOGNMAX` index lines (`20_memory.md` R32), so a number is taken modulo
`NMAX` (log entry 13). -/
def portIndex (B : Build S V) (i : Nat) : Nat := i % B.nmax

/-- `SampleRead(i)` (`20_memory.md` R33): the reply, and no other change of the spec's state. It works while
`ERR = 1`. -/
def sampleRead (B : Build S V) (i : Nat) (s : Fbu S V) : Fbu S V :=
  let x := s.load B (portIndex B i)
  { x.2 with replies := x.2.replies ++ [.sample (B.pack x.1)] }

/-- `SampleWrite(i, v)` (`20_memory.md` R32): the bits as given. -/
def sampleWrite (B : Build S V) (i : Nat) (v : V) (s : Fbu S V) : Fbu S V :=
  s.store (portIndex B i) (B.unpack v)

/-- A host transaction carried out. -/
def transact (B : Build S V) (t : Transaction V) (s : Fbu S V) : Out S V :=
  match t with
  | .cmdIssue w => cmdIssue B w s
  | .regRead r => .next (regRead B r s)
  | .sampleRead i => .next (sampleRead B i s)
  | .sampleWrite i v => .next (sampleWrite B i v s)
  | .reset => .next s.resetOp

/-- The transactions that are held while the engine runs (`20_memory.md` R34). -/
def heldWhileBusy : Transaction V → Bool
  | .cmdIssue _ => true
  | .regRead _ => false
  | .sampleRead _ => true
  | .sampleWrite _ _ => true
  | .reset => false

/-- Whether the request has to let the engine go first: its engine steps have not passed yet, or it is held. -/
def mustWait (r : Request V) : Bool := decide (0 < r.wait) || heldWhileBusy r.txn

/-- One engine step fewer to wait for the host's next transaction. -/
def tick : List (Request V) → List (Request V)
  | [] => []
  | r :: rest => { r with wait := r.wait - 1 } :: rest

/-- The next step of the whole machine. A busy engine moves unless the host's next transaction is due and not held;
an idle FBU has no engine step, and with nothing asked of it stays as it is (`48_sequencer_microsteps.md` R170; log
entries 2, 4). -/
def nextStep (B : Build S V) (s : Fbu S V) : Out S V :=
  match s.pending with
  | [] => if s.busy then engineStep B s else .next s
  | r :: rest =>
    if s.busy && mustWait r then engineStep B { s with pending := tick s.pending }
    else transact B r.txn { s with pending := rest }

/-- The state in which the host presents command word `w` next and the FBU is idle, so that the next step accepts it
(log entry 16). -/
def presented (s : Fbu S V) (w : Word) : Fbu S V :=
  { s with seq := Seq.rest, pending := { wait := 0, txn := .cmdIssue w } :: s.pending }

end Sys2Proof.Machine
end

