-- ==== Sys2Proof/Machine/Step.lean ====
section
/-!
DEFINITION. The step of the machine, and how an opcode-table word is placed as its next command.
-/

namespace Sys2Proof.Machine

/-- One step: a host transaction or an engine step (`00_scope.md` R8). -/
def step (s : State) : Host.Outcome State Fault Refusal :=
  s.under fun B f => nextStep B f

/-- `s` with the command of an opcode-table word where `step` takes its next command: at the command port of an idle
FBU (log entry 16). -/
def State.withFetchWord (s : State) (nbits w : Nat) : State :=
  { s with fbu := presented s.fbu (tableWord nbits w) }

end Sys2Proof.Machine
end

