-- ==== Sys2Proof/Machine/Assembler.lean ====
section
/-!
DEFINITION. The textual command language (`30_encoding.md` R56, R57): host programs, line by line, as the transactions
they stand for. A text is a list of characters.
-/

namespace Sys2Proof.Machine.Asm

variable {S V : Type}

/-- A line of a host program: a command, a pseudo-command, or another host transaction (R56, R57). -/
inductive Line (S : Type) where
  | command (i : Instr)
  /-- `setlog2 <L>`. -/
  | setlog2 (l : Nat)
  /-- `xform <n>`. -/
  | xform (n : Nat)
  /-- `ixform <n>`. -/
  | ixform (n : Nat)
  | fftParts
  | ifftParts
  /-- `write i, re, im`: a `SampleWrite`. -/
  | write (i : Nat) (re im : S)
  /-- `read i`: a `SampleRead`. -/
  | read (i : Nat)
  /-- `rdreg r`: a `RegRead`. -/
  | rdreg (r : Nat)
  | reset
deriving DecidableEq, Repr

/-- `stage 1 ; … ; stage L`. -/
def stages : Nat → List Instr
  | 0 => []
  | l + 1 => stages l ++ [.stage (l + 1)]

/-- The commands a line stands for (R57), `l` being the `L` that `fft.parts` and `ifft.parts` need. -/
def expansion (l : Nat) : Line S → List Instr
  | .command i => [i]
  | .setlog2 m => [.setn (2 ^ m)]
  | .xform n => [.setn n, .fft]
  | .ixform n => [.setn n, .ifft]
  | .fftParts => .bitrev :: stages l
  | .ifftParts => .conj :: .bitrev :: (stages l ++ [.conj, .scale])
  | .write _ _ _ => []
  | .read _ => []
  | .rdreg _ => []
  | .reset => []

/-- The transactions of a line, none if an operand does not fit its field (R56). An operand that fits and is out of
range for the current `N` is not rejected. DESIGN CHOICE (log entry 24): the index of a `write` or `read` line fits if it
is below `NMAX`, the `LOGNMAX` index bits of the sample port (`20_memory.md` R32); R56 names no bound for it. -/
def transactions (B : Build S V) (l : Nat) (x : Line S) : Option (List (Transaction V)) :=
  match x with
  | .write i re im => if i < B.nmax then some [.sampleWrite i (B.pack { re := re, im := im })] else none
  | .read i => if i < B.nmax then some [.sampleRead i] else none
  | .rdreg r => if r < 4 then some [.regRead (BitVec.ofNat 2 r)] else none
  | .reset => some [.reset]
  | _ =>
    if (expansion l x).all Instr.wellFormed then
      some ((expansion l x).map fun i => .cmdIssue (encode i))
    else none

/-- The value of a digit in a base up to 16, the letters of either case (log entry 25). -/
def digit (base : Nat) (c : Char) : Option Nat :=
  let v :=
    if '0' ≤ c ∧ c ≤ '9' then c.toNat - '0'.toNat
    else if 'a' ≤ c ∧ c ≤ 'f' then c.toNat - 'a'.toNat + 10
    else if 'A' ≤ c ∧ c ≤ 'F' then c.toNat - 'A'.toNat + 10
    else 16
  if v < base then some v else none

/-- The digits of a number, most significant first, after those already read as `acc`. -/
def digits (base acc : Nat) : List Char → Option Nat
  | [] => some acc
  | c :: cs =>
    match digit base c with
    | some v => digits base (acc * base + v) cs
    | none => none

/-- An unsigned operand, decimal or `0x` hexadecimal (R56). A blank is no digit, so an operand with a blank inside is
rejected (log entry 25). -/
def number : List Char → Option Nat
  | [] => none
  | '0' :: 'x' :: c :: cs => digits 16 0 (c :: cs)
  | c :: cs => digits 10 0 (c :: cs)

/-- The decimal number `(whole digits).(frac digits)` with the given sign as a scalar, if it is exactly a binary64
number (log entry 19). -/
def exactDecimal (neg : Bool) (whole frac : List Char) : Option Scalar :=
  match digits 10 0 (whole ++ frac) with
  | none => none
  | some v =>
    let m := v * 2 ^ 1074
    let x := Binary64.RN neg (m / 10 ^ frac.length) 0
    if whole ≠ [] ∧ Binary64.isFinite x = true ∧ Binary64.mag x * 10 ^ frac.length = m then some x else none

/-- The characters before the first `sep`, and those after it if there is one. -/
def splitAt (sep : Char) : List Char → List Char × Option (List Char)
  | [] => ([], none)
  | c :: cs => if c = sep then ([], some cs) else (c :: (splitAt sep cs).1, (splitAt sep cs).2)

/-- A pattern `0x…` of `ws` bits. -/
def pattern (ws : Nat) (cs : List Char) : Option (BitVec ws) :=
  match cs with
  | '0' :: 'x' :: h :: hs =>
    match digits 16 0 (h :: hs) with
    | some v => if v < 2 ^ ws then some (BitVec.ofNat ws v) else none
    | none => none
  | _ => none

/-- A binary64 operand: its pattern, or a decimal number that is exactly representable (log entry 19). -/
def b64Scalar (cs : List Char) : Option Scalar :=
  match cs with
  | '0' :: 'x' :: hs => pattern 64 ('0' :: 'x' :: hs)
  | '-' :: ds => exactDecimal true (splitAt '.' ds).1 ((splitAt '.' ds).2.getD [])
  | ds => exactDecimal false (splitAt '.' ds).1 ((splitAt '.' ds).2.getD [])

/-- A scalar operand of `write` in a numerics format (log entry 19). -/
def scalar (f : NumFormat) (cs : List Char) : Option (BitVec f.ws) :=
  match f with
  | .other ws => pattern ws cs
  | .b64 => b64Scalar cs

/-- The text without the blanks at its two ends. -/
def trim (cs : List Char) : List Char :=
  ((cs.dropWhile (· == ' ')).reverse.dropWhile (· == ' ')).reverse

/-- The pieces of a text between its commas. -/
def pieces : List Char → List (List Char)
  | [] => [[]]
  | c :: cs =>
    if c = ',' then [] :: pieces cs
    else
      match pieces cs with
      | [] => [[c]]
      | o :: os => (c :: o) :: os

/-- The operands of a line, from the text after its mnemonic: none from blanks alone, else the pieces between the commas,
without the blanks around each (log entry 25). -/
def operands (cs : List Char) : List (List Char) :=
  if trim cs = [] then [] else (pieces cs).map trim

/-- A line of a host program read from its text: the lower-case mnemonic, at least one blank, then the operands (R56,
R57). DESIGN CHOICE (log entry 25): R56 says nothing of blanks. Those before the mnemonic, at the end of the line and
around an operand are skipped; a line with a blank inside an operand is rejected. -/
def parseLine (f : NumFormat) (text : List Char) : Option (Line (BitVec f.ws)) :=
  let cut := splitAt ' ' (trim text)
  let ops := operands (cut.2.getD [])
  match cut.1, ops with
  | ['n', 'o', 'p'], [] => some (.command .nop)
  | ['s', 'e', 't', 'n'], [n] => (number n).map fun n => .command (.setn n)
  | ['c', 'l', 'r', 'e', 'r', 'r'], [] => some (.command .clrerr)
  | ['b', 'i', 't', 'r', 'e', 'v'], [] => some (.command .bitrev)
  | ['b', 'f', 'l', 'y'], [st, a] =>
    match number st, number a with
    | some st, some a => some (.command (.bfly st a))
    | _, _ => none
  | ['s', 't', 'a', 'g', 'e'], [st] => (number st).map fun st => .command (.stage st)
  | ['c', 'o', 'n', 'j'], [] => some (.command .conj)
  | ['s', 'c', 'a', 'l', 'e'], [] => some (.command .scale)
  | ['f', 'f', 't'], [] => some (.command .fft)
  | ['i', 'f', 'f', 't'], [] => some (.command .ifft)
  | ['s', 'e', 't', 'l', 'o', 'g', '2'], [l] => (number l).map .setlog2
  | ['x', 'f', 'o', 'r', 'm'], [n] => (number n).map .xform
  | ['i', 'x', 'f', 'o', 'r', 'm'], [n] => (number n).map .ixform
  | ['f', 'f', 't', '.', 'p', 'a', 'r', 't', 's'], [] => some .fftParts
  | ['i', 'f', 'f', 't', '.', 'p', 'a', 'r', 't', 's'], [] => some .ifftParts
  | ['w', 'r', 'i', 't', 'e'], [i, re, im] =>
    match number i, scalar f re, scalar f im with
    | some i, some re, some im => some (.write i re im)
    | _, _, _ => none
  | ['r', 'e', 'a', 'd'], [i] => (number i).map .read
  | ['r', 'd', 'r', 'e', 'g'], [r] => (number r).map .rdreg
  | ['r', 'e', 's', 'e', 't'], [] => some .reset
  | _, _ => none

/-- A line of text assembled into its transactions for an FBU of the configuration. -/
def assemble (c : Config) (l : Nat) (text : List Char) : Option (List (Transaction c.Port)) :=
  match parseLine c.numFmt text with
  | some x => transactions (build c) l x
  | none => none

end Sys2Proof.Machine.Asm
end

