-- ==== Sys2Proof/Machine/CommandLevel.lean ====
section
/-!
DEFINITION. The command level of `00_scope.md` R7: each accepted command as one transition from an idle state to an
idle state, by the loops the command's own rule gives. `step` is the micro-step level; that the two agree
(`48_sequencer_microsteps.md` R178) is a statement.
-/

namespace Sys2Proof.Machine

variable {S V : Type}

/-- `for j in 0 .. n−1: body j` (`00_scope.md` R6). -/
def forBelow : Nat → (Nat → Fbu S V → Fbu S V) → Fbu S V → Fbu S V
  | 0, _, s => s
  | n + 1, body, s => body n (forBelow n body s)

/-- The loop of `BITREV` (R120). -/
def revLoop (B : Build S V) (n l : Nat) (s : Fbu S V) : Fbu S V := forBelow n (revBody B l) s

/-- The loop of `STAGE st` (R111). -/
def stageLoop (B : Build S V) (n st : Nat) (s : Fbu S V) : Fbu S V := forBelow (n / 2) (bfyBody B st) s

/-- The loop of `CONJ` (R121). -/
def conjLoop (B : Build S V) (n : Nat) (s : Fbu S V) : Fbu S V := forBelow n (cnjBody B) s

/-- The loop of `SCALE` (R122). -/
def scaleLoop (B : Build S V) (n l : Nat) (s : Fbu S V) : Fbu S V := forBelow n (sclBody B l) s

/-- The two loops of `FFT` (R130): the permutation, then stages `1 .. L`. -/
def fftLoops (B : Build S V) (n l : Nat) (s : Fbu S V) : Fbu S V :=
  forBelow l (fun k => stageLoop B n (k + 1)) (revLoop B n l s)

/-- The four passes of `IFFT` (R131). -/
def ifftLoops (B : Build S V) (n l : Nat) (s : Fbu S V) : Fbu S V :=
  scaleLoop B n l (conjLoop B n (fftLoops B n l (conjLoop B n s)))

/-- A command at the command level: the checks of `60_exceptions.md` R193, then the whole effect. -/
def commandLevel (B : Build S V) (i : Instr) (s : Fbu S V) : Out S V :=
  match i with
  | .nop => nopOf B s
  | .setn n => setnOf B n s
  | .clrerr => clrerrOf B s
  | .bitrev => guarded B .bitrev s fun n l => .next (revLoop B n l s)
  | .bfly st a => bflyOf B st a s
  | .stage st =>
    guarded B (.stage st) s fun n l =>
      if legalStage l st then .next (stageLoop B n st s) else failed s .badOperand (.stage st)
  | .conj => guarded B .conj s fun n _ => .next (conjLoop B n s)
  | .scale => guarded B .scale s fun n l => .next (scaleLoop B n l s)
  | .fft => guarded B .fft s fun n l => .next (fftLoops B n l s)
  | .ifft => guarded B .ifft s fun n l => .next (ifftLoops B n l s)

/-- Several commands one after another at the command level. -/
def runCommands (B : Build S V) : List Instr → Fbu S V → Out S V
  | [], s => .next s
  | i :: is, s =>
    match commandLevel B i s with
    | .next t => runCommands B is t
    | .fault f => .fault f
    | .refused r => .refused r

/-- `k` engine steps. -/
def engineRun (B : Build S V) : Nat → Fbu S V → Out S V
  | 0, s => .next s
  | k + 1, s =>
    match engineStep B s with
    | .next t => engineRun B k t
    | .fault f => .fault f
    | .refused r => .refused r

/-- The engine steps a command takes once accepted, for a transform of length `2^L` (`48_sequencer_microsteps.md`
R177). -/
def stepCount (i : Instr) (l : Nat) : Nat :=
  match i with
  | .nop => 0
  | .setn _ => 0
  | .clrerr => 0
  | .bitrev => 2 ^ l
  | .bfly _ _ => 0
  | .stage _ => 2 ^ l / 2
  | .conj => 2 ^ l
  | .scale => 2 ^ l
  | .fft => 2 ^ l + l * (2 ^ l / 2)
  | .ifft => 4 * 2 ^ l + l * (2 ^ l / 2)

end Sys2Proof.Machine
end

