-- ==== Sys2Proof/Machine/Reference.lean ====
section
/-!
DEFINITION. The transforms as functions of a frame, over any numerics record and ROM: D0's recursion
(`46_reference_transforms_and_properties.md` R142, R143) and the in-place schedule of the FBU
(`45_transform_commands.md` R130, R131, `43_butterfly_commands.md` R113). A frame of length `2^L` is the function from
its indices; the values at other indices mean nothing. Nothing the machine does is defined by this file.
-/

namespace Sys2Proof.Machine

variable {S : Type}

/-- `FFT_rec` (R142) of a frame of length `2^L`, `tw k s` being `TW(k, s)`. -/
def fftRec (num : Num S) (tw : Nat → Nat → Cx S) : Nat → (Nat → Cx S) → Nat → Cx S
  | 0, x, k => x k
  | l + 1, x, k =>
    if k < 2 ^ l then
      (BF (steady num) (fftRec num tw l (fun n => x (2 * n)) k)
        (fftRec num tw l (fun n => x (2 * n + 1)) k) (tw k (l + 1))).1
    else
      (BF (steady num) (fftRec num tw l (fun n => x (2 * n)) (k - 2 ^ l))
        (fftRec num tw l (fun n => x (2 * n + 1)) (k - 2 ^ l)) (tw (k - 2 ^ l) (l + 1))).2

/-- `IFFT_ref` (R143) of a frame of length `2^L`. -/
def ifftRef (num : Num S) (tw : Nat → Nat → Cx S) (l : Nat) (x : Nat → Cx S) (n : Nat) : Cx S :=
  cscale (steady num) (cconj num (fftRec num tw l (fun k => cconj num (x k)) n)) l

/-- The permutation on a frame (R120). -/
def frameRev (l : Nat) (x : Nat → Cx S) : Nat → Cx S := fun i => x (brev l i)

/-- Stage `st` on a frame, block by block (R113): `i` is in the first or in the second half of its block. -/
def frameStage (num : Num S) (tw : Nat → Nat → Cx S) (st : Nat) (x : Nat → Cx S) : Nat → Cx S := fun i =>
  if i.testBit (st - 1) then
    (BF (steady num) (x (i - half st)) (x i) (tw (i % half st) st)).2
  else (BF (steady num) (x i) (x (i + half st)) (tw (i % half st) st)).1

/-- Stages `1 .. m` on a frame, in ascending order. -/
def frameStages (num : Num S) (tw : Nat → Nat → Cx S) : Nat → (Nat → Cx S) → Nat → Cx S
  | 0, x => x
  | m + 1, x => frameStage num tw (m + 1) (frameStages num tw m x)

/-- The schedule of `FFT` on a frame of length `2^L` (R130). -/
def frameFft (num : Num S) (tw : Nat → Nat → Cx S) (l : Nat) (x : Nat → Cx S) : Nat → Cx S :=
  frameStages num tw l (frameRev l x)

/-- The schedule of `IFFT` on a frame of length `2^L` (R131). -/
def frameIfft (num : Num S) (tw : Nat → Nat → Cx S) (l : Nat) (x : Nat → Cx S) : Nat → Cx S := fun n =>
  cscale (steady num) (cconj num (frameFft num tw l (fun k => cconj num (x k)) n)) l

end Sys2Proof.Machine
end

