-- ==== Sys2Proof/Machine/Exact.lean ====
section
/-!
DEFINITION. The mathematics the commands are measured against: `NUM_EXACT` and the FBU built with it
(`40_numeric_datapath.md` R83), the naive transforms over the complex numbers
(`46_reference_transforms_and_properties.md` R140, R141), the twiddle factors as R91 defines them, and the rational
value of a binary64 pattern with what correct rounding of a rational is (`40_numeric_datapath.md` R71, R72). Nothing
the machine does under another record is defined by this file.
-/

namespace Sys2Proof.Machine.Exact

open Finset

/-- The FBU under `NUM_EXACT` (R83) with `LOGNMAX − 1 = p`: the machine of every other build over the reals, its ROM the
exact cosines and sines of R91. There is no bit encoding, so the sample port carries the words themselves. What
never-written words hold is an argument. -/
noncomputable def build (p : Fin 21) (freeWord : Nat → Cx ℝ) : Build ℝ (Cx ℝ) where
  logNMaxPred := p
  numerics := .exact num ⟨rfl, rfl, rfl, rfl, fun _ _ _ => rfl⟩
  rom := exactTwiddle (p.val + 1)
  rom_legal := fun _ _ => rfl
  freeWord := freeWord

/-- `TW(k, s)` under `NUM_EXACT`: the twiddle of the fraction `k/2^s` (R83, `41_twiddle_rom.md` R91, R92). -/
noncomputable def tw (k st : Nat) : Cx ℝ := exactTwiddle st k

/-- The complex number of a pair. -/
def toC (z : Cx ℝ) : ℂ := ⟨z.re, z.im⟩

/-- The naive forward transform (R140). -/
noncomputable def dft (n : Nat) (x : Nat → ℂ) (k : Nat) : ℂ :=
  ∑ m ∈ range n, x m * Complex.exp (-2 * Real.pi * Complex.I * k * m / n)

/-- The naive inverse transform (R141). -/
noncomputable def idft (n : Nat) (x : Nat → ℂ) (m : Nat) : ℂ :=
  1 / n * ∑ k ∈ range n, x k * Complex.exp (2 * Real.pi * Complex.I * k * m / n)

/-- The real value of a finite binary64 pattern (R71), a rational. -/
def ratValue (x : Scalar) : ℚ := Binary64.value x / 2 ^ 1074

/-- `z` is `RN` of the rational `v` (R72), `sg` being the sign of the zero the calling rule states for `v = 0`: an
infinity exactly from `2^1024 − 2^970` on, else the finite number that no other is nearer to, its last significand bit 0
where another is equally near, with the sign of `v` also where it is a zero. -/
def RoundsTo (v : ℚ) (sg : Bool) (z : Scalar) : Prop :=
  (v = 0 → z = Binary64.zero sg) ∧
  ((2 : ℚ) ^ 1024 - 2 ^ 970 ≤ |v| → z = Binary64.inf (decide (v < 0))) ∧
  (v ≠ 0 → |v| < (2 : ℚ) ^ 1024 - 2 ^ 970 →
    Binary64.isFinite z = true ∧ Binary64.sign z = decide (v < 0) ∧
    ∀ y : Scalar, Binary64.isFinite y = true → ratValue y ≠ ratValue z →
      |ratValue z - v| < |ratValue y - v| ∨ (|ratValue z - v| = |ratValue y - v| ∧ z.toNat % 2 = 0))

end Sys2Proof.Machine.Exact
end

