-- ==== Sys2Proof/Safety.lean ====
section
/-!
DEFINITION. What statements about runs are said with: the invariant of the machine, the states that accept commands,
and the parts of a state a command may not change.
-/

namespace Sys2Proof.Machine

variable {S V : Type}

/-- The FBU accepts and executes commands: idle, no error pending (`30_encoding.md` R58). -/
abbrev Ready (s : Fbu S V) : Prop := s.busy = false ∧ s.err = false

/-- The active frame has length `2^L`, within the memory (`42_control_commands.md` R103). -/
abbrev HasLength (B : Build S V) (s : Fbu S V) (l : Nat) : Prop := s.len = 2 ^ l ∧ l ≤ B.logNMax

/-- The words of the active frame have been written since reset and hold `x`. -/
abbrev Holds (s : Fbu S V) (l : Nat) (x : Nat → Cx S) : Prop := ∀ i, i < 2 ^ l → s.word i = some (x i)

/-- The error report agrees with itself (`10_state.md` R14, R15; `60_exceptions.md` R190). -/
abbrev ErrorOk (s : Fbu S V) : Prop :=
  (s.err = false ↔ s.errcode = 0) ∧ s.errcode.toNat ≤ 4 ∧ (s.err = false → s.errcmd = 0)

/-- `SEQ` is at rest when idle (`10_state.md` R17), and in a combination and range that can occur when busy
(`48_sequencer_microsteps.md` R171 to R176). -/
abbrev SeqOk (B : Build S V) (s : Fbu S V) : Prop :=
  if s.busy then runnable B s = true ∧ (phaseEnd (log2 s.len) s.seq).isSome = true else s.seq = Seq.rest

/-- The invariant of the FBU: canonical memory within `NMAX`, `NLEN ≤ NMAX`, a consistent error report that excludes a
running command, and a sequencer in range. -/
abbrev FbuInv (B : Build S V) (s : Fbu S V) : Prop :=
  memWf B.nmax s.xmem = true ∧ s.len ≤ B.nmax ∧ ErrorOk s ∧
    (s.err = true → s.busy = false) ∧ SeqOk B s

/-- The invariant of the machine. -/
abbrev Inv (s : State) : Prop := FbuInv (build s.cfg) s.fbu

/-- Two states agree on everything a command's result may depend on (`10_state.md` R22): the length, the sequencer,
the active frame, and the free values to come. -/
def AgreeOnFrame (s s' : Fbu S V) : Prop :=
  s'.nlen = s.nlen ∧ s'.seq = s.seq ∧ s'.free = s.free ∧ ∀ i, i < s.len → s'.word i = s.word i

/-- `x` is what a read of a word with the known content `w` can give: the content, or any value if nothing has written
the word (`10_state.md` R21). -/
def Reads (w : Option (Cx S)) (x : Cx S) : Prop := ∀ v, w = some v → x = v

/-- The records of the arithmetic operations from the `n`-th of the run on. -/
def numsFrom (B : Build S V) (n : Nat) : Nat → Num S := fun k => B.numAt (n + k)

/-- The seven commands under the length guard (`42_control_commands.md` R103). -/
def isDatapath : Instr → Bool
  | .nop => false
  | .setn _ => false
  | .clrerr => false
  | .bitrev => true
  | .bfly _ _ => true
  | .stage _ => true
  | .conj => true
  | .scale => true
  | .fft => true
  | .ifft => true

/-- The next state of an outcome, if it is one. -/
def nextOf {σ : Type} (o : Host.Outcome σ Fault Refusal) : Option σ :=
  match o with
  | .next s => some s
  | .fault _ => none
  | .refused _ => none

end Sys2Proof.Machine
end

