-- ==== Sys2Proof/Certificates/Slice0/Obligations.lean ====
section
/-!
DEFINITION. The statements about the FBU, each a rule of spec/ or a consequence of rules. Nothing is proved here.
-/

open Sys2Proof Sys2Proof.Machine

/-! ## Command words -/

/-- `30_encoding.md` R54: `encode` is the inverse of `decode` on legal words: the word of every well-formed command,
with every operand at every value its field admits, decodes to that command. -/
def Obligations.DecodeEncodeRoundTrip : Prop :=
  ∀ i : Instr, i.wellFormed = true → decode (encode i) = .ok i

/-- `30_encoding.md` R54: a legal word is the word of the command it decodes to, and that command is well formed; so two
different legal words decode to different commands. -/
def Obligations.EncodeGivesTheDecodedWord : Prop :=
  ∀ (w : Word) (i : Instr), decode w = .ok i → encode i = w ∧ i.wellFormed = true

/-- `30_encoding.md` R54: the word decodes to the command of the row whose `(w & mask) = match`; at most one row
matches; no row means illegal. -/
def Obligations.DecodingSelectsTheMatchingRow : Prop :=
  ∀ w : Word,
    (∀ i, decode w = .ok i → ∃ r, opcodeRows[rowIndex i]? = some r ∧ r.selects w = true) ∧
    (∀ k r, opcodeRows[k]? = some r → r.selects w = true → ∃ i, decode w = .ok i ∧ rowIndex i = k)

/-- `30_encoding.md` R55: a word is illegal exactly when its opcode is unassigned or a bit of its format's `zero` field
is 1. -/
def Obligations.IllegalWordsAreTheReservedOnes : Prop :=
  ∀ w : Word,
    (decode w = .error .unassignedOpcode ↔
      bits w 31 26 ∉ [0x00, 0x01, 0x02, 0x08, 0x09, 0x0A, 0x0B, 0x0C, 0x10, 0x11]) ∧
    (decode w = .error .nonzeroZeroField ↔
      (bits w 31 26 ∈ [0x00, 0x02, 0x08, 0x0B, 0x0C, 0x10, 0x11] ∧ bits w 25 0 ≠ 0) ∨
      (bits w 31 26 = 0x01 ∧ bits w 25 22 ≠ 0) ∨ (bits w 31 26 = 0x0A ∧ bits w 20 0 ≠ 0))

/-- Words written out in `95_test_vectors.md` V11 and `30_encoding.md` R56, one or more of each format. -/
def Obligations.SpecWordsDecode : Prop :=
  decode 0x00000000 = .ok .nop ∧ decode 0x04000004 = .ok (.setn 4) ∧ decode 0x043FFFFF = .ok (.setn 4194303) ∧
  decode 0x04400000 = .error .nonzeroZeroField ∧ decode 0x08000000 = .ok .clrerr ∧
  decode 0x0C000000 = .error .unassignedOpcode ∧ decode 0x20000000 = .ok .bitrev ∧
  decode 0x24400001 = .ok (.bfly 2 1) ∧ decode 0x27FFFFFF = .ok (.bfly 31 2097151) ∧
  decode 0x2BE00000 = .ok (.stage 31) ∧ decode 0x28200001 = .error .nonzeroZeroField ∧
  decode 0x2C000000 = .ok .conj ∧ decode 0x30000000 = .ok .scale ∧ decode 0x40000000 = .ok .fft ∧
  decode 0x44000000 = .ok .ifft ∧ decode 0xFFFFFFFF = .error .unassignedOpcode

/-- `30_encoding.md` R56: an assembler gives a command's word, and rejects an operand that does not fit its field but
not one that is out of range for the current `N`. -/
def Obligations.AssemblerAcceptsWhatFits : Prop :=
  ∀ (S V : Type) (B : Build S V) (l : Nat) (i : Instr),
    Asm.transactions B l (.command i) =
      if i.wellFormed = true then some [.cmdIssue (encode i)] else none

/-! ## Control commands and errors -/

/-- `42_control_commands.md` R100: `NOP` changes nothing; its word is `0x00000000`, and every other word with opcode 0 is
illegal. That `NOP` answers the same state also while the engine runs is the model's choice (log entry 14: the spec
holds such a command). -/
def Obligations.NopDoesNothing : Prop :=
  (∀ s : State, exec .nop s = .next s) ∧
  ∀ w : Word, bits w 31 26 = 0 → (w = 0 → decode w = .ok .nop) ∧
    (w ≠ 0 → ∀ (c : Config) (s : Fbu c.Scalar c.Port), Ready s →
      cmdIssue (build c) w s = .next { s with err := true, errcode := 3, errcmd := w })

/-- `42_control_commands.md` R101: `SETN n` stores any `n ≤ NMAX`, a power of two or not, and nothing else changes; a
larger `n` is `LENGTH_RANGE` and `NLEN` keeps its value; a word with a bit of 25:22 set is `ILLEGAL_CMD`. -/
def Obligations.SetnSetsTheLength : Prop :=
  ∀ (c : Config) (s : Fbu c.Scalar c.Port), Ready s →
    (∀ n, n ≤ (build c).nmax →
      exec (.setn n) ⟨c, s⟩ = .next ⟨c, { s with nlen := BitVec.ofNat 22 n }⟩ ∧ (BitVec.ofNat 22 n).toNat = n) ∧
    (∀ n, (build c).nmax < n →
      exec (.setn n) ⟨c, s⟩ = .next ⟨c, { s with err := true, errcode := 2, errcmd := encode (.setn n) }⟩) ∧
    (∀ n, n < 2 ^ 22 → decode (0x04000000 ||| BitVec.ofNat 32 n) = .ok (.setn n)) ∧
    (∀ w, bits w 31 26 = 1 → bits w 25 22 ≠ 0 →
      cmdIssue (build c) w s = .next { s with err := true, errcode := 3, errcmd := w })

/-- `42_control_commands.md` R102: `CLRERR` clears the three error fields and changes nothing else, also while
`ERR = 1`, when no other command is executed; with no error it changes nothing; only the word `0x08000000` does it. -/
def Obligations.ClrerrClearsTheError : Prop :=
  decode 0x08000000 = .ok .clrerr ∧
  ∀ (c : Config) (s : Fbu c.Scalar c.Port), s.busy = false →
    exec .clrerr ⟨c, s⟩ = .next ⟨c, { s with err := false, errcode := 0, errcmd := 0 }⟩ ∧
    (ErrorOk s → s.err = false → exec .clrerr ⟨c, s⟩ = .next ⟨c, s⟩) ∧
    (∀ i : Instr, i ≠ .clrerr → s.err = true → exec i ⟨c, s⟩ = .next ⟨c, s⟩) ∧
    ∀ w : Word, bits w 31 26 = 2 → w ≠ 0x08000000 →
      (s.err = true → cmdIssue (build c) w s = .next s) ∧
      (s.err = false → cmdIssue (build c) w s = .next { s with err := true, errcode := 3, errcmd := w })

/-- `60_exceptions.md` R191, R197: when a command ends in error entry, the state is the one before it with the three
writes and nothing else, and the word recorded is the word issued; in every build. -/
def Obligations.ErrorsArePrecise : Prop :=
  ∀ (S V : Type) (B : Build S V) (s t : Fbu S V) (w : Word), s.err = false → cmdIssue B w s = .next t →
    t.err = true →
    s.busy = false ∧ ∃ e : CmdError, t = { s with err := true, errcode := errorCode e, errcmd := w }

/-- `60_exceptions.md` R192: while `ERR = 1` every word but `0x08000000` is dropped, an illegal one too. -/
def Obligations.CommandsAreDroppedWhileErr : Prop :=
  ∀ (c : Config) (s : Fbu c.Scalar c.Port), s.busy = false → s.err = true →
    (∀ w : Word, w ≠ 0x08000000 → cmdIssue (build c) w s = .next s) ∧
    cmdIssue (build c) 0x08000000 s = .next { s with err := false, errcode := 0, errcmd := 0 } ∧
    ∀ i : Instr, i ≠ .clrerr → exec i ⟨c, s⟩ = .next ⟨c, s⟩

/-- `60_exceptions.md` R193, checks 1 to 9 in their order: the first that applies decides; in every build. That a held
command answers the same state is the model's choice (log entry 14). -/
def Obligations.ChecksApplyInOrder : Prop :=
  ∀ (S V : Type) (B : Build S V) (s : Fbu S V) (w : Word),
    (s.busy = true → cmdIssue B w s = .next s) ∧
    (s.busy = false → s.err = true →
      cmdIssue B w s = .next (if w = 0x08000000 then s.clearError else s)) ∧
    (Ready s → ∀ e, decode w = .error e → cmdIssue B w s = .next (s.raise .illegalCmd w)) ∧
    (Ready s → ∀ n, decode w = .ok (.setn n) → B.nmax < n → cmdIssue B w s = .next (s.raise .lengthRange w)) ∧
    (Ready s → ∀ i, decode w = .ok i → isDatapath i = true → (¬ ∃ l, s.len = 2 ^ l) →
      cmdIssue B w s = .next (s.raise .invalidLength w)) ∧
    (Ready s → ∀ l, HasLength B s l →
      (∀ st, decode w = .ok (.stage st) → (st < 1 ∨ l < st) → cmdIssue B w s = .next (s.raise .badOperand w)) ∧
      (∀ st a, decode w = .ok (.bfly st a) → (st < 1 ∨ l < st) → cmdIssue B w s = .next (s.raise .badOperand w)) ∧
      (∀ st a, decode w = .ok (.bfly st a) → 1 ≤ st → st ≤ l → (2 ^ l ≤ a ∨ a.testBit (st - 1) = true) →
        cmdIssue B w s = .next (s.raise .badOperand w))) ∧
    (Ready s → ∀ i, decode w = .ok i →
      (∀ n, i = .setn n → n ≤ B.nmax) →
      (isDatapath i = true → ∃ l, HasLength B s l ∧
        (∀ st, i = .stage st → 1 ≤ st ∧ st ≤ l) ∧
        (∀ st a, i = .bfly st a → 1 ≤ st ∧ st ≤ l ∧ a < 2 ^ l ∧ a.testBit (st - 1) = false)) →
      ∃ t, cmdIssue B w s = .next t ∧ t.err = false)

/-- `42_control_commands.md` R103: every datapath command with an `NLEN` that is no power of two, 0 included, raises
`INVALID_LENGTH` and touches no word. -/
def Obligations.LengthGuardRejects : Prop :=
  ∀ (c : Config) (s : Fbu c.Scalar c.Port) (i : Instr), Ready s → isDatapath i = true → (¬ ∃ l, s.len = 2 ^ l) →
    exec i ⟨c, s⟩ = .next ⟨c, { s with err := true, errcode := 1, errcmd := encode i }⟩

/-- `43_butterfly_commands.md` R110, R111: a stage outside `1 .. L`, and for `BFLY` an `a ≥ N` or with bit `s−1` set,
raise `BAD_OPERAND` and change nothing else; for `N = 1` no stage is legal. -/
def Obligations.BadOperandsAreReported : Prop :=
  ∀ (c : Config) (s : Fbu c.Scalar c.Port) (l st a : Nat), Ready s → HasLength (build c) s l →
    ((st < 1 ∨ l < st) →
      exec (.stage st) ⟨c, s⟩ = .next ⟨c, { s with err := true, errcode := 4, errcmd := encode (.stage st) }⟩ ∧
      exec (.bfly st a) ⟨c, s⟩ = .next ⟨c, { s with err := true, errcode := 4, errcmd := encode (.bfly st a) }⟩) ∧
    (1 ≤ st → st ≤ l → (2 ^ l ≤ a ∨ a.testBit (st - 1) = true) →
      exec (.bfly st a) ⟨c, s⟩ = .next ⟨c, { s with err := true, errcode := 4, errcmd := encode (.bfly st a) }⟩)

/-! ## The datapath commands, from acceptance to the last engine step

Where a statement says that the count of free values may change, that count is the model's own field, and a word never
written reads as a free value (log entries 7, 8, 9). -/

/-- `48_sequencer_microsteps.md` R171: the acceptance of a multi-step command changes nothing but `SEQ`, as its table
says; with `BUSY = 1` from then on. `NOP`, `SETN`, `CLRERR` and `BFLY` never load `SEQ`, nor does a command that ends in
error entry. -/
def Obligations.MultiStepCommandsLoadSeq : Prop :=
  (∀ (c : Config) (s : Fbu c.Scalar c.Port) (l : Nat), Ready s → HasLength (build c) s l →
    exec .bitrev ⟨c, s⟩ = .next ⟨c, { s with seq := { phase := .rev, mac := .none, s := 0, j := 0 } }⟩ ∧
    (∀ st, 1 ≤ st → st ≤ l →
      exec (.stage st) ⟨c, s⟩ = .next ⟨c, { s with seq := { phase := .bfy, mac := .none, s := st, j := 0 } }⟩) ∧
    exec .conj ⟨c, s⟩ = .next ⟨c, { s with seq := { phase := .cnj1, mac := .none, s := 0, j := 0 } }⟩ ∧
    exec .scale ⟨c, s⟩ = .next ⟨c, { s with seq := { phase := .scl, mac := .none, s := 0, j := 0 } }⟩ ∧
    exec .fft ⟨c, s⟩ = .next ⟨c, { s with seq := { phase := .rev, mac := .fft, s := 0, j := 0 } }⟩ ∧
    exec .ifft ⟨c, s⟩ = .next ⟨c, { s with seq := { phase := .cnj1, mac := .ifft, s := 0, j := 0 } }⟩) ∧
  (∀ (c : Config) (s t : Fbu c.Scalar c.Port) (n st a : Nat),
    (exec .nop ⟨c, s⟩ = .next ⟨c, t⟩ ∨ exec (.setn n) ⟨c, s⟩ = .next ⟨c, t⟩ ∨
      exec .clrerr ⟨c, s⟩ = .next ⟨c, t⟩ ∨ exec (.bfly st a) ⟨c, s⟩ = .next ⟨c, t⟩) → t.seq = s.seq) ∧
  ∀ (c : Config) (s t : Fbu c.Scalar c.Port) (i : Instr),
    exec i ⟨c, s⟩ = .next ⟨c, t⟩ → t.err = true → t.seq = s.seq

/-- `43_butterfly_commands.md` R110: `BFLY s, a` completes in its own step: the words `a` and `a + 2^(s−1)` take the two
results of `BF` with the twiddle `TW(a mod 2^(s−1), s)`, and nothing else changes (but the count of free values). An
operand never written reads as some value. -/
def Obligations.BflyCombinesOnePair : Prop :=
  ∀ (c : Config) (s : Fbu c.Scalar c.Port) (l st a : Nat), Ready s → HasLength (build c) s l → 1 ≤ st → st ≤ l →
    a < 2 ^ l → a.testBit (st - 1) = false →
    ∃ t e o n, exec (.bfly st a) ⟨c, s⟩ = .next ⟨c, t⟩ ∧
      t = { s with xmem := t.xmem, free := t.free } ∧
      Reads (s.word a) e ∧ Reads (s.word (a + 2 ^ (st - 1))) o ∧ a + 2 ^ (st - 1) < 2 ^ l ∧
      t.word a = some (BF (numsFrom (build c) n) e o (tw (build c) (a % 2 ^ (st - 1)) st)).1 ∧
      t.word (a + 2 ^ (st - 1)) = some (BF (numsFrom (build c) n) e o (tw (build c) (a % 2 ^ (st - 1)) st)).2 ∧
      ∀ i, i ≠ a → i ≠ a + 2 ^ (st - 1) → t.word i = s.word i

/-- `44_permute_conj_scale_commands.md` R120: `BITREV` is accepted, and after its `N` engine steps the FBU is idle and
word `i` holds what word `brev_L(i)` held, for every `i < N`; a palindromic index and every inactive word are
untouched, and nothing else changes (but the count of free values). -/
def Obligations.BitrevPermutesTheFrame : Prop :=
  ∀ (c : Config) (s : Fbu c.Scalar c.Port) (l : Nat), Ready s → HasLength (build c) s l →
    ∃ t u, exec .bitrev ⟨c, s⟩ = .next ⟨c, t⟩ ∧ engineRun (build c) (2 ^ l) t = .next u ∧
      u = { s with xmem := u.xmem, free := u.free, seq := Seq.rest } ∧
      (∀ i, i < 2 ^ l → brev l i = i → u.word i = s.word i) ∧
      (∀ i, i < 2 ^ l → brev l i ≠ i → ∃ x, Reads (s.word (brev l i)) x ∧ u.word i = some x) ∧
      ∀ i, 2 ^ l ≤ i → u.word i = s.word i

/-- `44_permute_conj_scale_commands.md` R121: `CONJ` is accepted, and after its `N` engine steps every word of the frame
is its conjugate; nothing else changes (but the count of free values). -/
def Obligations.ConjConjugatesTheFrame : Prop :=
  ∀ (c : Config) (s : Fbu c.Scalar c.Port) (l : Nat), Ready s → HasLength (build c) s l →
    ∃ t u, exec .conj ⟨c, s⟩ = .next ⟨c, t⟩ ∧ engineRun (build c) (2 ^ l) t = .next u ∧
      u = { s with xmem := u.xmem, free := u.free, seq := Seq.rest } ∧
      (∀ i, i < 2 ^ l → ∃ x, Reads (s.word i) x ∧ u.word i = some (cconj ((build c).numAt 0) x)) ∧
      ∀ i, 2 ^ l ≤ i → u.word i = s.word i

/-- `44_permute_conj_scale_commands.md` R122: `SCALE` is accepted, and after its `N` engine steps every word of the frame
is divided by `N`; nothing else changes (but the count of free values). -/
def Obligations.ScaleDividesTheFrame : Prop :=
  ∀ (c : Config) (s : Fbu c.Scalar c.Port) (l : Nat), Ready s → HasLength (build c) s l →
    ∃ t u, exec .scale ⟨c, s⟩ = .next ⟨c, t⟩ ∧ engineRun (build c) (2 ^ l) t = .next u ∧
      u = { s with xmem := u.xmem, free := u.free, seq := Seq.rest } ∧
      (∀ i, i < 2 ^ l → ∃ x n, Reads (s.word i) x ∧ u.word i = some (cscale (numsFrom (build c) n) x l)) ∧
      ∀ i, 2 ^ l ≤ i → u.word i = s.word i

/-- `43_butterfly_commands.md` R113: `STAGE s` is accepted, and after its `N/2` engine steps every block `g` of `2^s`
words holds the two halves' combination; nothing else changes (but the count of free values). -/
def Obligations.StageCombinesEveryBlock : Prop :=
  ∀ (c : Config) (s : Fbu c.Scalar c.Port) (l st : Nat), Ready s → HasLength (build c) s l → 1 ≤ st → st ≤ l →
    ∃ t u, exec (.stage st) ⟨c, s⟩ = .next ⟨c, t⟩ ∧ engineRun (build c) (2 ^ l / 2) t = .next u ∧
      u = { s with xmem := u.xmem, free := u.free, seq := Seq.rest } ∧
      (∀ g k, g < 2 ^ (l - st) → k < 2 ^ (st - 1) →
        ∃ e o n, Reads (s.word (g * 2 ^ st + k)) e ∧ Reads (s.word (g * 2 ^ st + 2 ^ (st - 1) + k)) o ∧
          u.word (g * 2 ^ st + k) = some (cadd (later (numsFrom (build c) n) 6) e
            (cmul (numsFrom (build c) n) (tw (build c) k st) o)) ∧
          u.word (g * 2 ^ st + 2 ^ (st - 1) + k) = some (csub (later (numsFrom (build c) n) 8) e
            (cmul (numsFrom (build c) n) (tw (build c) k st) o))) ∧
      ∀ i, 2 ^ l ≤ i → u.word i = s.word i

/-- `45_transform_commands.md` R133 with the acceptance and step count of `48_sequencer_microsteps.md` R171, R177 and the
inactive words of `20_memory.md` R38: `FFT` is accepted, and after its `N + L·N/2` engine steps the FBU is idle and
the frame holds D0's recursive transform of the frame before, in every configuration that draws nothing; nothing else
changes. -/
def Obligations.FftComputesTheRecursiveTransform : Prop :=
  ∀ (c : Config) (s : Fbu c.Scalar c.Port) (l : Nat) (x : Nat → Cx c.Scalar), Ready s → HasLength (build c) s l →
    (build c).draws = false → Holds s l x →
    ∃ t u, exec .fft ⟨c, s⟩ = .next ⟨c, t⟩ ∧ engineRun (build c) (2 ^ l + l * (2 ^ l / 2)) t = .next u ∧
      u = { s with xmem := u.xmem, seq := Seq.rest } ∧
      (∀ i, i < 2 ^ l → u.word i = some (fftRec ((build c).numAt 0) (tw (build c)) l x i)) ∧
      ∀ i, 2 ^ l ≤ i → u.word i = s.word i

/-- `45_transform_commands.md` R134 with the acceptance and step count of `48_sequencer_microsteps.md` R171, R177 and the
inactive words of `20_memory.md` R38: `IFFT` is accepted, and after its `4N + L·N/2` engine steps the FBU is idle
and the frame holds D0's inverse transform of the frame before; nothing else changes. -/
def Obligations.IfftComputesTheInverseTransform : Prop :=
  ∀ (c : Config) (s : Fbu c.Scalar c.Port) (l : Nat) (x : Nat → Cx c.Scalar), Ready s → HasLength (build c) s l →
    (build c).draws = false → Holds s l x →
    ∃ t u, exec .ifft ⟨c, s⟩ = .next ⟨c, t⟩ ∧ engineRun (build c) (4 * 2 ^ l + l * (2 ^ l / 2)) t = .next u ∧
      u = { s with xmem := u.xmem, seq := Seq.rest } ∧
      (∀ i, i < 2 ^ l → u.word i = some (ifftRef ((build c).numAt 0) (tw (build c)) l x i)) ∧
      ∀ i, 2 ^ l ≤ i → u.word i = s.word i

/-- `48_sequencer_microsteps.md` R178: from an idle state, the engine steps after a command's acceptance end in exactly
the state the command level gives, for every command, every content of the memory and every NaN policy. Where the
command level stops, which is the model's choice for a length no run reaches (log entry 12), acceptance stops. -/
def Obligations.MicroStepsAgreeWithCommandLevel : Prop :=
  ∀ (c : Config) (s : Fbu c.Scalar c.Port) (i : Instr), s.seq = Seq.rest →
    (∀ u, commandLevel (build c) i s = .next u →
      ∃ t, exec i ⟨c, s⟩ = .next ⟨c, t⟩ ∧
        engineRun (build c) (if t.busy then stepCount i (log2 s.len) else 0) t = .next u ∧ u.seq = Seq.rest) ∧
    (∀ f, commandLevel (build c) i s = .fault f → exec i ⟨c, s⟩ = .fault f)

/-- `48_sequencer_microsteps.md` R177: a started command is busy at every earlier step and idle after exactly its step
count. -/
def Obligations.CommandsTakeExactlyTheirSteps : Prop :=
  ∀ (c : Config) (s t : Fbu c.Scalar c.Port) (i : Instr), s.busy = false → exec i ⟨c, s⟩ = .next ⟨c, t⟩ →
    t.busy = true →
    (∀ k, k < stepCount i (log2 s.len) → ∃ u, engineRun (build c) k t = .next u ∧ u.busy = true) ∧
    ∃ u, engineRun (build c) (stepCount i (log2 s.len)) t = .next u ∧ u.busy = false

/-- `30_encoding.md` R57: the expansions `fft.parts` and `ifft.parts` are equal in effect to `fft` and `ifft`, in every
build. -/
def Obligations.PartsEqualTheWholeTransforms : Prop :=
  ∀ (S V : Type) (B : Build S V) (s : Fbu S V) (l : Nat), Ready s → HasLength B s l →
    runCommands B (Asm.expansion l (.fftParts : Asm.Line S)) s = commandLevel B .fft s ∧
    runCommands B (Asm.expansion l (.ifftParts : Asm.Line S)) s = commandLevel B .ifft s

/-- `44_permute_conj_scale_commands.md` R120, R121: `BITREV ; BITREV` restores a written frame bit for bit, and so does
`CONJ ; CONJ` in binary64. -/
def Obligations.PermutationAndConjugationUndoThemselves : Prop :=
  (∀ (S V : Type) (B : Build S V) (s : Fbu S V) (l : Nat) (x : Nat → Cx S), Ready s → HasLength B s l →
    Holds s l x → ∃ u, runCommands B [.bitrev, .bitrev] s = .next u ∧ Holds u l x) ∧
  ∀ (p : Fin 21) (policy : NanPolicy) (s : Fbu Scalar (BitVec 128)) (l : Nat) (x : Nat → CWord), Ready s →
    HasLength (build (Config.b64 p policy)) s l → Holds s l x →
    ∃ u, runCommands (build (Config.b64 p policy)) [.conj, .conj] s = .next u ∧ Holds u l x

/-! ## The engine -/

/-- `48_sequencer_microsteps.md` R172 to R175: what one engine step does to the words, phase by phase, and that it
changes nothing else but `SEQ` (and the count of free values); in every build. -/
def Obligations.EngineStepDoesOneOperation : Prop :=
  ∀ (S V : Type) (B : Build S V) (s t : Fbu S V), engineStep B s = .next t →
    t = { s with xmem := t.xmem, free := t.free, seq := t.seq } ∧
    (s.seq.phase = .rev →
      (s.seq.j < brev (log2 s.len) s.seq.j →
        (∃ x, Reads (s.word s.seq.j) x ∧ t.word (brev (log2 s.len) s.seq.j) = some x) ∧
        (∃ y, Reads (s.word (brev (log2 s.len) s.seq.j)) y ∧ t.word s.seq.j = some y) ∧
        ∀ i, i ≠ s.seq.j → i ≠ brev (log2 s.len) s.seq.j → t.word i = s.word i) ∧
      (¬ s.seq.j < brev (log2 s.len) s.seq.j → t.xmem = s.xmem)) ∧
    (s.seq.phase = .bfy →
      ∃ e o n, Reads (s.word (pairFirst s.seq.s s.seq.j)) e ∧
        Reads (s.word (pairFirst s.seq.s s.seq.j + 2 ^ (s.seq.s - 1))) o ∧
        t.word (pairFirst s.seq.s s.seq.j) =
          some (BF (numsFrom B n) e o (tw B (s.seq.j % 2 ^ (s.seq.s - 1)) s.seq.s)).1 ∧
        t.word (pairFirst s.seq.s s.seq.j + 2 ^ (s.seq.s - 1)) =
          some (BF (numsFrom B n) e o (tw B (s.seq.j % 2 ^ (s.seq.s - 1)) s.seq.s)).2 ∧
        ∀ i, i ≠ pairFirst s.seq.s s.seq.j → i ≠ pairFirst s.seq.s s.seq.j + 2 ^ (s.seq.s - 1) →
          t.word i = s.word i) ∧
    ((s.seq.phase = .cnj1 ∨ s.seq.phase = .cnj2) →
      (∃ x, Reads (s.word s.seq.j) x ∧ t.word s.seq.j = some (cconj (B.numAt 0) x)) ∧
      ∀ i, i ≠ s.seq.j → t.word i = s.word i) ∧
    (s.seq.phase = .scl →
      (∃ x n, Reads (s.word s.seq.j) x ∧ t.word s.seq.j = some (cscale (numsFrom B n) x (log2 s.len))) ∧
      ∀ i, i ≠ s.seq.j → t.word i = s.word i)

/-- `48_sequencer_microsteps.md` R172 to R176: inside a phase the counter counts, and the last step of a phase loads
`SEQ` as the table of R176 says; in every build. -/
def Obligations.PhasesFollowTheTable : Prop :=
  ∀ (S V : Type) (B : Build S V) (s t : Fbu S V), engineStep B s = .next t →
    let l := log2 s.len
    let last := if s.seq.phase = .bfy then s.len / 2 else s.len
    (s.seq.j + 1 < last → t.seq = { s.seq with j := s.seq.j + 1 }) ∧
    (¬ s.seq.j + 1 < last →
      (s.seq.mac = .none → t.seq = { phase := .idle, mac := .none, s := 0, j := 0 }) ∧
      (s.seq.mac = .fft → s.seq.phase = .rev → 1 ≤ l → t.seq = { phase := .bfy, mac := .fft, s := 1, j := 0 }) ∧
      (s.seq.mac = .fft → s.seq.phase = .rev → l = 0 → t.seq = { phase := .idle, mac := .none, s := 0, j := 0 }) ∧
      (s.seq.mac = .fft → s.seq.phase = .bfy → s.seq.s < l →
        t.seq = { phase := .bfy, mac := .fft, s := s.seq.s + 1, j := 0 }) ∧
      (s.seq.mac = .fft → s.seq.phase = .bfy → s.seq.s = l →
        t.seq = { phase := .idle, mac := .none, s := 0, j := 0 }) ∧
      (s.seq.mac = .ifft → s.seq.phase = .cnj1 → t.seq = { phase := .rev, mac := .ifft, s := 0, j := 0 }) ∧
      (s.seq.mac = .ifft → s.seq.phase = .rev → 1 ≤ l → t.seq = { phase := .bfy, mac := .ifft, s := 1, j := 0 }) ∧
      (s.seq.mac = .ifft → s.seq.phase = .rev → l = 0 → t.seq = { phase := .cnj2, mac := .ifft, s := 0, j := 0 }) ∧
      (s.seq.mac = .ifft → s.seq.phase = .bfy → s.seq.s < l →
        t.seq = { phase := .bfy, mac := .ifft, s := s.seq.s + 1, j := 0 }) ∧
      (s.seq.mac = .ifft → s.seq.phase = .bfy → s.seq.s = l →
        t.seq = { phase := .cnj2, mac := .ifft, s := 0, j := 0 }) ∧
      (s.seq.mac = .ifft → s.seq.phase = .cnj2 → t.seq = { phase := .scl, mac := .ifft, s := 0, j := 0 }) ∧
      (s.seq.mac = .ifft → s.seq.phase = .scl → t.seq = { phase := .idle, mac := .none, s := 0, j := 0 }))

/-- `10_state.md` R22: what an engine step or a `BFLY` leaves in the active frame depends on nothing but the active frame,
`N`, `SEQ` and the parameters: two states that agree on these (and on the free values to come) take steps to states
that agree on them again, whatever the inactive words, the error report's history and the host's side hold. The free
values are the model's (log entries 7, 9). -/
def Obligations.ResultsDependOnTheFrameAlone : Prop :=
  (∀ (S V : Type) (B : Build S V) (s s' t : Fbu S V), AgreeOnFrame s s' → engineStep B s = .next t →
    ∃ t', engineStep B s' = .next t' ∧ AgreeOnFrame t t') ∧
  ∀ (c : Config) (s s' t : Fbu c.Scalar c.Port) (st a : Nat), AgreeOnFrame s s' → Ready s → Ready s' →
    exec (.bfly st a) ⟨c, s⟩ = .next ⟨c, t⟩ →
    ∃ t', exec (.bfly st a) ⟨c, s'⟩ = .next ⟨c, t'⟩ ∧ AgreeOnFrame t t'

/-! ## The ports and the whole machine -/

/-- `30_encoding.md` R58: a step takes the host's next transaction, and a `CmdIssue` whose word decodes to `i` is
`exec i`, on the state without that transaction; an illegal word is reported; and `withFetchWord` presents exactly the
given word. That the transactions stand in a list, and what `withFetchWord` does, are the model's choice (log entries 2,
16). -/
def Obligations.StepRunsTheDecodedCommand : Prop :=
  (∀ (c : Config) (s : Fbu c.Scalar c.Port) (n : Nat) (w : Word) (rest : List (Request c.Port)), s.busy = false →
    s.pending = { wait := n, txn := .cmdIssue w } :: rest →
    (∀ i, decode w = .ok i → step ⟨c, s⟩ = exec i ⟨c, { s with pending := rest }⟩) ∧
    (∀ e, decode w = .error e → step ⟨c, s⟩ = lift c (illegal w { s with pending := rest }))) ∧
  ∀ (c : Config) (s : Fbu c.Scalar c.Port) (w : Word) (i : Instr), decode w = .ok i →
    step ((State.mk c s).withFetchWord 32 w.toNat) = exec i ⟨c, { s with seq := Seq.rest }⟩

/-- `20_memory.md` R34: while the engine runs, `CmdIssue`, `SampleRead` and `SampleWrite` are held (the engine moves and
the transaction stays), `RegRead` and `Reset` are not; when it is idle, every transaction is taken at once. The
list and the number of steps to wait are the model's choice (log entry 2). -/
def Obligations.TransactionsAreHeldWhileBusy : Prop :=
  ∀ (c : Config) (s : Fbu c.Scalar c.Port) (n : Nat) (x : Transaction c.Port) (rest : List (Request c.Port)),
    s.pending = { wait := n, txn := x } :: rest →
    (s.busy = true → heldWhileBusy x = true →
      step ⟨c, s⟩ = lift c (engineStep (build c) { s with pending := { wait := n - 1, txn := x } :: rest })) ∧
    (s.busy = true → heldWhileBusy x = false → n = 0 →
      step ⟨c, s⟩ = lift c (transact (build c) x { s with pending := rest })) ∧
    (s.busy = false → step ⟨c, s⟩ = lift c (transact (build c) x { s with pending := rest })) ∧
    (heldWhileBusy x = true ↔
      (∃ w, x = .cmdIssue w) ∨ (∃ i, x = .sampleRead i) ∨ ∃ i v, x = .sampleWrite i v)

/-- `10_state.md` R18, with R13 to R16: `RegRead` returns the four registers bit by bit, in every state of every build, and
changes no state but what the host has been told, the model's list of replies (log entry 3). `NUMFMT` is 1 for
`NUM_B64` and 0 for every other record. -/
def Obligations.RegReadReturnsTheRegisters : Prop :=
  (∀ (S V : Type) (B : Build S V) (s : Fbu S V),
    (∀ r, transact B (.regRead r) s = .next { s with replies := s.replies ++ [.reg (regValue B s r)] }) ∧
    (bits (regValue B s 0) 4 0 = B.logNMax ∧ bits (regValue B s 0) 7 5 = 0 ∧ bits (regValue B s 0) 15 8 = 1 ∧
      bits (regValue B s 0) 19 16 = B.numFmtCode.toNat ∧ bits (regValue B s 0) 31 20 = 0) ∧
    (bits (regValue B s 1) 0 0 = (if s.seq.phase = .idle then 0 else 1) ∧
      bits (regValue B s 1) 1 1 = (if s.err = true then 1 else 0) ∧ bits (regValue B s 1) 3 2 = 0 ∧
      bits (regValue B s 1) 7 4 = s.errcode.toNat ∧ bits (regValue B s 1) 31 8 = 0) ∧
    (bits (regValue B s 2) 21 0 = s.nlen.toNat ∧ bits (regValue B s 2) 31 22 = 0) ∧
    regValue B s 3 = s.errcmd) ∧
  ∀ c : Config, (build c).numFmtCode = if c.numFmt = .b64 then 1 else 0

/-- `20_memory.md` R32, R33: a sample write stores the low half as the real and the high half as the imaginary part and
changes nothing else; a sample read returns those bits and changes nothing but what the host has been told, the model's
list of replies (log entry 3). For every configuration, of every width `WS`; and for every numerics record of R70,
through its `enc` and `dec`. -/
def Obligations.SampleReadReturnsTheWrittenBits : Prop :=
  (∀ (c : Config) (s : Fbu c.Scalar c.Port) (i : Nat) (v : c.Port), i < (build c).nmax →
    ∃ t, transact (build c) (.sampleWrite i v) s = .next t ∧
      t = { s with xmem := t.xmem } ∧
      (∃ x, t.word i = some x ∧ x.re.toNat = v.toNat % 2 ^ c.numFmt.ws ∧ x.im.toNat = v.toNat / 2 ^ c.numFmt.ws) ∧
      (∀ j, j ≠ i → t.word j = s.word j) ∧
      transact (build c) (.sampleRead i) t = .next { t with replies := t.replies ++ [.sample v] }) ∧
  ∀ (R : NumRecord) (other : ¬ R.isB64) (p : Fin 21) (rom freeWord : Nat → Cx R.S)
    (legal : RomRounds (p.val + 1) rom),
    let B := recordBuild R other p rom legal freeWord
    ∀ (s : Fbu R.S (BitVec (R.WS + R.WS))) (i : Nat) (v : BitVec (R.WS + R.WS)), i < B.nmax →
    ∃ t, transact B (.sampleWrite i v) s = .next t ∧
      t = { s with xmem := t.xmem } ∧
      (∃ x, t.word i = some x ∧ (R.enc x.re).toNat = v.toNat % 2 ^ R.WS ∧ (R.enc x.im).toNat = v.toNat / 2 ^ R.WS) ∧
      (∀ j, j ≠ i → t.word j = s.word j) ∧
      transact B (.sampleRead i) t = .next { t with replies := t.replies ++ [.sample v] }

/-- `10_state.md` R21, `93_implementation_defined.md` U1: reading a word never written since reset is no fault: it
returns some value, and the word stays never written. The free value and its count are the model's (log entries 7, 8). -/
def Obligations.UnwrittenWordsCanBeRead : Prop :=
  ∀ (S V : Type) (B : Build S V) (s : Fbu S V) (i : Nat), i < B.nmax → s.word i = none →
    ∃ v, transact B (.sampleRead i) s = .next { s with free := s.free + 1, replies := s.replies ++ [.sample v] }

/-- `70_reset_and_hazards.md` R210: `Reset` is carried out in every state, busy or not, with an error pending or not: the
registers and `SEQ` take their reset values, every word is unspecified, and the configuration is kept. That the list of
requests goes on and the list of replies and the count of free values are kept is the model's choice (log entries 2, 3,
21). -/
def Obligations.ResetWorksInEveryState : Prop :=
  ∀ (c : Config) (s : Fbu c.Scalar c.Port) (rest : List (Request c.Port)),
    s.pending = { wait := 0, txn := .reset } :: rest →
    ∃ t, step ⟨c, s⟩ = .next ⟨c, t⟩ ∧ t.nlen = 0 ∧ t.err = false ∧ t.errcode = 0 ∧ t.errcmd = 0 ∧
      t.seq = { phase := .idle, mac := .none, s := 0, j := 0 } ∧ (∀ i, t.word i = none) ∧
      t.pending = rest ∧ t.replies = s.replies ∧ t.free = s.free

/-- `10_state.md` R21: the state after reset, in the default configuration of `00_scope.md` R4, as the host reads it. -/
def Obligations.ResetStateHasTheResetValues : Prop :=
  let s := State.reset.fbu
  let B := build State.reset.cfg
  s.nlen = 0 ∧ s.err = false ∧ s.errcode = 0 ∧ s.errcmd = 0 ∧
  s.seq = { phase := .idle, mac := .none, s := 0, j := 0 } ∧ (∀ i, s.word i = none) ∧
  regValue B s 0 = 0x0001010A ∧ regValue B s 1 = 0 ∧ regValue B s 2 = 0 ∧ regValue B s 3 = 0

/-- The invariant holds after reset, in every configuration. -/
def Obligations.InvariantHoldsAtReset : Prop :=
  Inv State.reset ∧ ∀ c : Config, Inv ⟨c, Fbu.reset⟩

/-- Every step of the machine, of the host or of the engine, keeps the invariant: the memory canonical and within
`NMAX`, `NLEN ≤ NMAX`, `ERR = 0` if and only if `ERRCODE = 0` with a code of at most 4, no command running while
`ERR = 1`, and `SEQ` at rest or in a combination and range of `48_sequencer_microsteps.md` R171 to R176. -/
def Obligations.EveryStepKeepsTheInvariant : Prop :=
  ∀ s t : State, Inv s → step s = .next t → Inv t

/-- `70_reset_and_hazards.md` R216, `48_sequencer_microsteps.md` R179: no state that meets the invariant stops: no engine
step can fail, no transaction can fault, no command is without a meaning. -/
def Obligations.NoStepStops : Prop :=
  ∀ s : State, Inv s → ∃ t, step s = .next t

/-- `70_reset_and_hazards.md` R216: a busy engine is idle again after at most `4·NMAX + LOGNMAX·NMAX/2` engine steps, in
every build. -/
def Obligations.BusyEngineBecomesIdle : Prop :=
  ∀ (S V : Type) (B : Build S V) (s : Fbu S V), FbuInv B s → s.busy = true →
    ∃ k t, k ≤ 4 * B.nmax + B.logNMax * (B.nmax / 2) ∧ engineRun B k s = .next t ∧ t.busy = false

/-- `41_twiddle_rom.md` R96, `10_state.md` R12, R16: no command, transaction or reset changes the configuration, so `ID` and
`TWROM` are constants. -/
def Obligations.ConfigurationNeverChanges : Prop :=
  ∀ s t : State, step s = .next t →
    t.cfg = s.cfg ∧ regValue (build t.cfg) t.fbu 0 = regValue (build s.cfg) s.fbu 0 ∧
    HEq (build t.cfg).rom (build s.cfg).rom

/-- `10_state.md` R13: `NLEN` is written by `SETN` and by reset only. -/
def Obligations.OnlySetnAndResetWriteNlen : Prop :=
  ∀ (c : Config) (s t : Fbu c.Scalar c.Port), step ⟨c, s⟩ = .next ⟨c, t⟩ → t.nlen ≠ s.nlen →
    (∃ r rest w n, s.pending = r :: rest ∧ r.txn = .cmdIssue w ∧ decode w = .ok (.setn n) ∧ s.busy = false ∧
      s.err = false ∧ n ≤ (build c).nmax ∧ t.nlen.toNat = n) ∨
    (∃ r rest, s.pending = r :: rest ∧ r.txn = .reset ∧ t.nlen = 0)

/-- `10_state.md` R14, R15: the error report is written by error entry, cleared by `CLRERR` and by reset, and by nothing
else; error entry never overwrites an error. -/
def Obligations.ErrorReportHasThreeWriters : Prop :=
  ∀ (c : Config) (s t : Fbu c.Scalar c.Port), step ⟨c, s⟩ = .next ⟨c, t⟩ →
    (t.err = s.err ∧ t.errcode = s.errcode ∧ t.errcmd = s.errcmd) ∨
    (∃ r rest w e, s.pending = r :: rest ∧ r.txn = .cmdIssue w ∧ s.busy = false ∧ s.err = false ∧
      t = { s with pending := rest, err := true, errcode := errorCode e, errcmd := w }) ∨
    (∃ r rest, s.pending = r :: rest ∧ (r.txn = .cmdIssue 0x08000000 ∨ r.txn = .reset) ∧
      t.err = false ∧ t.errcode = 0 ∧ t.errcmd = 0)

/-- `20_memory.md` R38: no engine step and no command touches a word outside the active frame; only a step that itself
carries out a `SampleWrite` or a `Reset` does. A step carries out the first request when the engine is idle or the
request need not wait (`20_memory.md` R34); while it waits, the step is one of the engine. -/
def Obligations.InactiveWordsAreKept : Prop :=
  ∀ (c : Config) (s t : Fbu c.Scalar c.Port), step ⟨c, s⟩ = .next ⟨c, t⟩ →
    (∀ r rest, s.pending = r :: rest → (s.busy = true → mustWait r = false) →
      r.txn ≠ .reset ∧ ∀ i v, r.txn ≠ .sampleWrite i v) →
    ∀ i, s.len ≤ i → t.word i = s.word i

/-- `48_sequencer_microsteps.md` R179: while a command runs, `STATUS` reads `BUSY = 1` and nothing else, and `ERRCMD` reads
0. -/
def Obligations.BusyHostSeesNoError : Prop :=
  ∀ (S V : Type) (B : Build S V) (s : Fbu S V), FbuInv B s → s.busy = true →
    regValue B s 1 = 0x00000001 ∧ regValue B s 3 = 0

/-! ## Arithmetic -/

/-- `40_numeric_datapath.md` R72: rounding of a magnitude `m · 2^−(1074+k)`. A result below the infinity is nearest among
all finite patterns, and even when another is equally near; the result is the infinity exactly from
`2^1024 − 2^970` on. Distances are in units of `2^−(1074+k)`. -/
def Obligations.RoundingIsNearestEven : Prop :=
  ∀ m k : Nat,
    (Binary64.roundMag m k = Binary64.infLow ↔ (2 ^ 2098 - 2 ^ 2044) * 2 ^ k ≤ m) ∧
    (Binary64.roundMag m k < Binary64.infLow →
      ∀ y : Nat, y < Binary64.infLow → y ≠ Binary64.roundMag m k →
        let d := ((Binary64.mag (Binary64.withSign false (Binary64.roundMag m k)) * 2 ^ k : Nat) : Int) - m
        let d' := ((Binary64.mag (Binary64.withSign false y) * 2 ^ k : Nat) : Int) - m
        d.natAbs < d'.natAbs ∨ (d.natAbs = d'.natAbs ∧ Binary64.roundMag m k % 2 = 0))

/-- `40_numeric_datapath.md` R72 to R74: the four arithmetic operations on finite operands give `RN` of the exact sum,
difference, product or quotient: ties to even, an infinity exactly from `2^1024 − 2^970` on, and a zero with the sign the
operation's rule states (a zero sum is `−0` for two operands `−0` alone). -/
def Obligations.ArithmeticIsCorrectlyRounded : Prop :=
  ∀ (nan x y : Scalar) (l : Nat), Binary64.isFinite x = true → Binary64.isFinite y = true →
    Exact.RoundsTo (Exact.ratValue x + Exact.ratValue y)
      (decide (x = 0x8000000000000000 ∧ y = 0x8000000000000000)) (Binary64.fadd nan x y) ∧
    Exact.RoundsTo (Exact.ratValue x - Exact.ratValue y)
      (decide (x = 0x8000000000000000 ∧ y = 0x0000000000000000)) (Binary64.fsub nan x y) ∧
    Exact.RoundsTo (Exact.ratValue x * Exact.ratValue y)
      (Binary64.sign x != Binary64.sign y) (Binary64.fmul nan x y) ∧
    Exact.RoundsTo (Exact.ratValue x / 2 ^ l) (Binary64.sign x) (Binary64.fdivN nan x l)

/-- `40_numeric_datapath.md` R75: a NaN operand or an invalid operation gives `NaNresult`, and nothing else gives a NaN;
`NaNresult` is `0x7FF8000000000000` throughout under `canonical`, and under `draw` the NaN drawn for the operation, which
may be every NaN and nothing else. The count that numbers the draws is the model's (log entries 8, 9). -/
def Obligations.NaNResultsFollowThePolicy : Prop :=
  (∀ (nan x y : Scalar) (l : Nat), Binary64.isNaN nan = true →
    (Binary64.isNaN (Binary64.fadd nan x y) = true ↔
      Binary64.isNaN x = true ∨ Binary64.isNaN y = true ∨
        (Binary64.isInf x = true ∧ Binary64.isInf y = true ∧ Binary64.sign x ≠ Binary64.sign y)) ∧
    (Binary64.isNaN (Binary64.fsub nan x y) = true ↔
      Binary64.isNaN x = true ∨ Binary64.isNaN y = true ∨
        (Binary64.isInf x = true ∧ Binary64.isInf y = true ∧ Binary64.sign x = Binary64.sign y)) ∧
    (Binary64.isNaN (Binary64.fmul nan x y) = true ↔
      Binary64.isNaN x = true ∨ Binary64.isNaN y = true ∨
        (Binary64.isZero x = true ∧ Binary64.isInf y = true) ∨ (Binary64.isInf x = true ∧ Binary64.isZero y = true)) ∧
    (Binary64.isNaN (Binary64.fdivN nan x l) = true ↔ Binary64.isNaN x = true) ∧
    (Binary64.isNaN (Binary64.fadd nan x y) = true → Binary64.fadd nan x y = nan) ∧
    (Binary64.isNaN (Binary64.fsub nan x y) = true → Binary64.fsub nan x y = nan) ∧
    (Binary64.isNaN (Binary64.fmul nan x y) = true → Binary64.fmul nan x y = nan) ∧
    (Binary64.isNaN (Binary64.fdivN nan x l) = true → Binary64.fdivN nan x l = nan)) ∧
  (∀ (p : Fin 21) (n : Nat),
    (build (Config.b64 p .canonical)).numAt n = Binary64.num 0x7FF8000000000000 ∧
    (build (Config.b64 p .draw)).numAt n = Binary64.num (Binary64.nanOf (Config.freeNaN n))) ∧
  Binary64.isNaN 0x7FF8000000000000 = true ∧
  ∀ z : Scalar, Binary64.isNaN z = true ↔ ∃ b, Binary64.nanOf b = z

/-- `40_numeric_datapath.md` R73, R74: consequences the rules state: `fsub(x, x) = +0` for finite `x`, `fdivN(x, 0) = x`
for every non-NaN `x`, and `fneg(fneg(x)) = x` bit for bit. -/
def Obligations.ExactScalarOperations : Prop :=
  ∀ nan x : Scalar,
    (Binary64.isFinite x = true → Binary64.fsub nan x x = 0) ∧
    (Binary64.isNaN x = false → Binary64.fdivN nan x 0 = x) ∧
    Binary64.fneg (Binary64.fneg x) = x ∧
    (Binary64.fneg x).toNat % 2 ^ 63 = x.toNat % 2 ^ 63 ∧ Binary64.sign (Binary64.fneg x) = !Binary64.sign x

/-- `46_reference_transforms_and_properties.md` R153: the inverse transform of a frame of zeros, of either sign, is a frame
of zeros, in binary64. -/
def Obligations.InverseOfZerosIsZeros : Prop :=
  ∀ (p : Fin 21) (policy : NanPolicy) (l : Nat) (x : Nat → CWord),
    let B := build (Config.b64 p policy)
    l ≤ B.logNMax →
    (∀ i, i < 2 ^ l → Binary64.isZero (x i).re = true ∧ Binary64.isZero (x i).im = true) →
    ∀ i, i < 2 ^ l →
      Binary64.isZero (ifftRef (B.numAt 0) (tw B) l x i).re = true ∧
      Binary64.isZero (ifftRef (B.numAt 0) (tw B) l x i).im = true

/-! ## Indices and the twiddle ROM -/

/-- `40_numeric_datapath.md` R85: `ispow2` is true exactly for the powers of two, 0 being none, and `log2` gives the
exponent. -/
def Obligations.PowerOfTwoTest : Prop :=
  ∀ n : Nat, (ispow2 n = true ↔ ∃ l, n = 2 ^ l) ∧ ∀ l, n = 2 ^ l → log2 n = l

/-- `40_numeric_datapath.md` R86: `brev_L` reverses the `L` bits, is a bijection of `0 .. 2^L − 1` and its own inverse, and
satisfies the two recurrences; the tables for `L` from 0 to 4. -/
def Obligations.BitReversalLaws : Prop :=
  (∀ l i, i < 2 ^ l →
    brev l i < 2 ^ l ∧ brev l (brev l i) = i ∧
    (∀ b, b < l → (brev l i).testBit (l - 1 - b) = i.testBit b) ∧
    brev l i = ∑ b ∈ Finset.range l, (i.testBit b).toNat * 2 ^ (l - 1 - b)) ∧
  (∀ l g, g < 2 ^ l → brev (l + 1) (2 * g) = brev l g ∧ brev (l + 1) (2 * g + 1) = 2 ^ l + brev l g) ∧
  (List.range 1).map (brev 0) = [0] ∧
  (List.range 2).map (brev 1) = [0, 1] ∧
  (List.range 4).map (brev 2) = [0, 2, 1, 3] ∧
  (List.range 8).map (brev 3) = [0, 4, 2, 6, 1, 5, 3, 7] ∧
  (List.range 16).map (brev 4) = [0, 8, 4, 12, 2, 10, 6, 14, 1, 9, 5, 13, 3, 11, 7, 15]

/-- `40_numeric_datapath.md` R84: the ranges of the index arithmetic of a stage, and that `j ↦ a` is a bijection onto the
indices below `N` whose bit `s−1` is 0, so that the pairs of a stage partition the frame. -/
def Obligations.ButterflyPairsPartitionTheFrame : Prop :=
  ∀ (S V : Type) (B : Build S V) (l st : Nat), l ≤ B.logNMax → 1 ≤ st → st ≤ l →
    (∀ j, j < 2 ^ l / 2 →
      j / half st < 2 ^ (l - st) ∧ pairPos st j < 2 ^ (st - 1) ∧
      pairFirst st j ≤ 2 ^ l - half st - 1 ∧ (pairFirst st j).testBit (st - 1) = false ∧
      pairSecond st (pairFirst st j) = pairFirst st j ||| half st ∧
      half st ≤ pairSecond st (pairFirst st j) ∧ pairSecond st (pairFirst st j) < 2 ^ l ∧
      romIndex B (pairPos st j) st ≤ B.nmax / 2 - B.nmax / 2 ^ st) ∧
    (∀ j j', j < 2 ^ l / 2 → j' < 2 ^ l / 2 → pairFirst st j = pairFirst st j' → j = j') ∧
    (∀ i, i < 2 ^ l → i.testBit (st - 1) = false → ∃ j, j < 2 ^ l / 2 ∧ pairFirst st j = i) ∧
    (∀ i, i < 2 ^ l → i.testBit (st - 1) = true → ∃ j, j < 2 ^ l / 2 ∧ pairSecond st (pairFirst st j) = i)

/-- `41_twiddle_rom.md` R94: the entries a model may rely on exactly, in every build: the patterns of `NUM_B64`,
the numbers of `NUM_EXACT`, and for every record the one, the zero, the minus one and the roots of a half it has. Behind
`NUMFMT = 0` the whole ROM is a rounding as R91 says, of which nothing else is known (log entry 10). -/
def Obligations.ExactTwiddleEntries : Prop :=
  (∀ (p : Fin 21) (policy : NanPolicy),
    let B := build (Config.b64 p policy)
    B.rom 0 = { re := 0x3FF0000000000000, im := 0x0000000000000000 } ∧
    (2 ≤ B.logNMax → B.rom (B.nmax / 4) = { re := 0x0000000000000000, im := 0xBFF0000000000000 }) ∧
    (3 ≤ B.logNMax → B.rom (B.nmax / 8) = { re := 0x3FE6A09E667F3BCD, im := 0xBFE6A09E667F3BCD } ∧
      B.rom (3 * B.nmax / 8) = { re := 0xBFE6A09E667F3BCD, im := 0xBFE6A09E667F3BCD })) ∧
  (∀ (p : Fin 21) (freeWord : Nat → Cx ℝ),
    let B := Exact.build p freeWord
    B.rom 0 = { re := 1, im := 0 } ∧
    (2 ≤ B.logNMax → B.rom (B.nmax / 4) = { re := 0, im := -1 }) ∧
    (3 ≤ B.logNMax → B.rom (B.nmax / 8) = { re := √2 / 2, im := -(√2 / 2) } ∧
      B.rom (3 * B.nmax / 8) = { re := -(√2 / 2), im := -(√2 / 2) })) ∧
  (∀ (S V : Type) (B : Build S V), ∃ one zero minusOne root minusRoot : S,
    B.rom 0 = { re := one, im := zero } ∧
    (2 ≤ B.logNMax → B.rom (B.nmax / 4) = { re := zero, im := minusOne }) ∧
    (3 ≤ B.logNMax → B.rom (B.nmax / 8) = { re := root, im := minusRoot } ∧
      B.rom (3 * B.nmax / 8) = { re := minusRoot, im := minusRoot })) ∧
  ∀ (c : Config) (ws : Nat), c.numFmt = .other ws → RomRounds (build c).logNMax (build c).rom

/-- `41_twiddle_rom.md` R93: `TW(k, s)` does not depend on `LOGNMAX`, for `NUM_B64` and for `NUM_EXACT`. -/
def Obligations.TwiddlesDoNotDependOnTheDepth : Prop :=
  ∀ (p q : Fin 21) (k st : Nat), 1 ≤ st → st ≤ p.val + 1 → st ≤ q.val + 1 → k < 2 ^ (st - 1) →
    (∀ policy policy' : NanPolicy,
      tw (build (Config.b64 p policy)) k st = tw (build (Config.b64 q policy')) k st) ∧
    ∀ freeWord : Nat → Cx ℝ, tw (Exact.build p freeWord) k st = Exact.tw k st

/-- `41_twiddle_rom.md` R95, for every `LOGNMAX`: the two reflections, bit for bit, and the signs of the entries, for
`NUM_B64` and for `NUM_EXACT`. Above `LOGNMAX = 10` the entries the printed table lacks are computed by the model (log
entry 11). -/
def Obligations.TwiddleTableSymmetries : Prop :=
  (∀ (p : Fin 21) (policy : NanPolicy) (j : Nat),
    let B := build (Config.b64 p policy)
    let rom : Nat → CWord := B.rom
    (0 < j → j < B.nmax / 4 →
      (rom (B.nmax / 4 - j)).re = Binary64.fneg (rom j).im ∧
      (rom (B.nmax / 4 - j)).im = Binary64.fneg (rom j).re ∧
      (rom (B.nmax / 4 + j)).re = Binary64.fneg (rom (B.nmax / 4 - j)).re ∧
      (rom (B.nmax / 4 + j)).im = (rom (B.nmax / 4 - j)).im) ∧
    (j < B.nmax / 2 →
      Binary64.isFinite (rom j).re = true ∧ Binary64.isFinite (rom j).im = true ∧
      (j < B.nmax / 4 → 0 < Exact.ratValue (rom j).re) ∧
      (B.nmax / 4 < j → Exact.ratValue (rom j).re < 0) ∧
      (0 < j → Exact.ratValue (rom j).im < 0))) ∧
  ∀ (p : Fin 21) (freeWord : Nat → Cx ℝ) (j : Nat),
    let B := Exact.build p freeWord
    (0 < j → j < B.nmax / 4 →
      (B.rom (B.nmax / 4 - j)).re = -(B.rom j).im ∧ (B.rom (B.nmax / 4 - j)).im = -(B.rom j).re ∧
      (B.rom (B.nmax / 4 + j)).re = -(B.rom (B.nmax / 4 - j)).re ∧
      (B.rom (B.nmax / 4 + j)).im = (B.rom (B.nmax / 4 - j)).im) ∧
    (j < B.nmax / 2 →
      (j < B.nmax / 4 → 0 < (B.rom j).re) ∧ (B.nmax / 4 < j → (B.rom j).re < 0) ∧ (0 < j → (B.rom j).im < 0))

/-! ## The transforms as mathematics -/

/-- `45_transform_commands.md` R133: bit reversal and then the stages in ascending order compute D0's recursion, operation
for operation, in every numerics record and with every ROM. -/
def Obligations.ScheduleComputesTheRecursion : Prop :=
  ∀ (S : Type) (num : Num S) (tw : Nat → Nat → Cx S) (l : Nat) (x : Nat → Cx S) (k : Nat), k < 2 ^ l →
    frameFft num tw l x k = fftRec num tw l x k

/-- `46_reference_transforms_and_properties.md` R145: under `NUM_EXACT` D0's recursion is the naive transform. -/
def Obligations.RecursionIsTheDft : Prop :=
  ∀ (l : Nat) (x : Nat → Cx ℝ) (k : Nat), k < 2 ^ l →
    Exact.toC (fftRec Exact.num Exact.tw l x k) = Exact.dft (2 ^ l) (fun n => Exact.toC (x n)) k

/-- `46_reference_transforms_and_properties.md` R146, R148: the FBU under `NUM_EXACT`: `FFT` and `IFFT` are accepted, and
after their engine steps the frame holds the naive forward transform, and the naive inverse transform, of the frame
before, every inactive word being untouched (`20_memory.md` R38); D0's recursion and its inverse give the same numbers.
What a never-written word holds is an argument of the
build, and the frame has been written. -/
def Obligations.InverseIsTheIdft : Prop :=
  (∀ (l : Nat) (x : Nat → Cx ℝ) (n : Nat), n < 2 ^ l →
    Exact.toC (ifftRef Exact.num Exact.tw l x n) = Exact.idft (2 ^ l) (fun k => Exact.toC (x k)) n) ∧
  ∀ (p : Fin 21) (freeWord : Nat → Cx ℝ) (s : Fbu ℝ (Cx ℝ)) (l : Nat) (x : Nat → Cx ℝ),
    let B := Exact.build p freeWord
    Ready s → HasLength B s l → Holds s l x →
    (∃ t u, execOf B .fft s = .next t ∧ engineRun B (2 ^ l + l * (2 ^ l / 2)) t = .next u ∧
      u = { s with xmem := u.xmem, seq := Seq.rest } ∧
      (∀ k, k < 2 ^ l → u.word k = some (fftRec Exact.num Exact.tw l x k) ∧
        Exact.toC (fftRec Exact.num Exact.tw l x k) = Exact.dft (2 ^ l) (fun n => Exact.toC (x n)) k) ∧
      ∀ i, 2 ^ l ≤ i → u.word i = s.word i) ∧
    ∃ t u, execOf B .ifft s = .next t ∧ engineRun B (4 * 2 ^ l + l * (2 ^ l / 2)) t = .next u ∧
      u = { s with xmem := u.xmem, seq := Seq.rest } ∧
      (∀ n, n < 2 ^ l → u.word n = some (ifftRef Exact.num Exact.tw l x n) ∧
        Exact.toC (ifftRef Exact.num Exact.tw l x n) = Exact.idft (2 ^ l) (fun k => Exact.toC (x k)) n) ∧
      ∀ i, 2 ^ l ≤ i → u.word i = s.word i

/-- `46_reference_transforms_and_properties.md` R147, R149, R150, R152: under `NUM_EXACT` the inverse of the forward
transform and the forward of the inverse are the frame itself, for the recursion and for the FBU running `fft ; ifft`
and `ifft ; fft`; the forward transform is linear; Parseval's identity holds; and the FBU's `FFT` leaves the sum of the
samples in word 0 and, of a real frame, conjugate-symmetric bins. -/
def Obligations.ExactTransformLaws : Prop :=
  (∀ (l : Nat) (x y : Nat → Cx ℝ),
    (∀ n, n < 2 ^ l → ifftRef Exact.num Exact.tw l (fftRec Exact.num Exact.tw l x) n = x n) ∧
    (∀ n, n < 2 ^ l → fftRec Exact.num Exact.tw l (ifftRef Exact.num Exact.tw l x) n = x n) ∧
    (∀ (a b : ℂ) (z : Nat → Cx ℝ),
      (∀ n, n < 2 ^ l → Exact.toC (z n) = a * Exact.toC (x n) + b * Exact.toC (y n)) →
      ∀ k, k < 2 ^ l → Exact.toC (fftRec Exact.num Exact.tw l z k) =
        a * Exact.toC (fftRec Exact.num Exact.tw l x k) + b * Exact.toC (fftRec Exact.num Exact.tw l y k)) ∧
    ∑ n ∈ Finset.range (2 ^ l), Complex.normSq (Exact.toC (x n)) =
      1 / 2 ^ l * ∑ k ∈ Finset.range (2 ^ l), Complex.normSq (Exact.toC (fftRec Exact.num Exact.tw l x k))) ∧
  ∀ (p : Fin 21) (freeWord : Nat → Cx ℝ) (s : Fbu ℝ (Cx ℝ)) (l : Nat) (x : Nat → Cx ℝ),
    let B := Exact.build p freeWord
    Ready s → HasLength B s l → Holds s l x →
    (∃ u, runCommands B [.fft, .ifft] s = .next u ∧ Holds u l x) ∧
    (∃ u, runCommands B [.ifft, .fft] s = .next u ∧ Holds u l x) ∧
    ∃ u y, commandLevel B .fft s = .next u ∧ Holds u l y ∧
      Exact.toC (y 0) = ∑ n ∈ Finset.range (2 ^ l), Exact.toC (x n) ∧
      ((∀ n, n < 2 ^ l → (x n).im = 0) →
        ∀ k, 0 < k → k < 2 ^ l → y (2 ^ l - k) = { re := (y k).re, im := -(y k).im })
end

