-- ==== Sys2Proof/Laws/State.lean ====
section
/-!
SUPPORT. One lemma per field of `Fbu` and named update, and what a meaning or a step of the machine is in terms of the FBU, so that no proof unfolds a record update.
-/

namespace Sys2Proof.Machine

variable {S V : Type}

/-! The machine in terms of the FBU of its configuration. -/

@[simp] theorem lift_next (c : Config) (f : Fbu c.Scalar c.Port) : lift c (.next f) = .next ⟨c, f⟩ := rfl
@[simp] theorem lift_fault (c : Config) (r : Fault) : lift c (.fault r) = .fault r := rfl
@[simp] theorem lift_refused (c : Config) (r : Refusal) : lift c (.refused r) = .refused r := rfl

/-- Everything a next state of the machine can be. -/
theorem lift_eq_next {c : Config} {o : Out c.Scalar c.Port} {t : State} (h : lift c o = .next t) :
    ∃ f, o = .next f ∧ t = ⟨c, f⟩ := by
  cases o with
  | next f => exact ⟨f, rfl, by cases h; rfl⟩
  | fault r => cases h
  | refused r => cases h

theorem exec_mk (i : Instr) (c : Config) (f : Fbu c.Scalar c.Port) :
    exec i ⟨c, f⟩ = lift c (execOf (build c) i f) := by
  cases i <;> rfl

theorem step_mk (c : Config) (f : Fbu c.Scalar c.Port) : step ⟨c, f⟩ = lift c (nextStep (build c) f) := rfl

theorem withFetchWord_mk (c : Config) (f : Fbu c.Scalar c.Port) (nbits w : Nat) :
    (State.mk c f).withFetchWord nbits w = ⟨c, presented f (tableWord nbits w)⟩ := rfl

/-- A configuration with `NUMFMT = 0` is the build of a record and a ROM of that width. -/
theorem build_other (ws : Nat) (p : Fin 21) (policy : NanPolicy) :
    build { logNMaxPred := p, numFmt := .other ws, nanPolicy := policy } =
      recordBuild (NumRecord.ofBits ws (otherOps ws).val)
        (otherOps ws).property p (otherEntry ws (p.val + 1)) (otherEntry_rounds ws p)
        (Config.freeWord ws) := rfl

/-! `XMEM[i] <- v`. -/

@[simp] theorem store_xmem (s : Fbu S V) (i : Nat) (v : Cx S) : (s.store i v).xmem = memWrite s.xmem i v := rfl
@[simp] theorem store_nlen (s : Fbu S V) (i : Nat) (v : Cx S) : (s.store i v).nlen = s.nlen := rfl
@[simp] theorem store_err (s : Fbu S V) (i : Nat) (v : Cx S) : (s.store i v).err = s.err := rfl
@[simp] theorem store_errcode (s : Fbu S V) (i : Nat) (v : Cx S) : (s.store i v).errcode = s.errcode := rfl
@[simp] theorem store_errcmd (s : Fbu S V) (i : Nat) (v : Cx S) : (s.store i v).errcmd = s.errcmd := rfl
@[simp] theorem store_seq (s : Fbu S V) (i : Nat) (v : Cx S) : (s.store i v).seq = s.seq := rfl
@[simp] theorem store_free (s : Fbu S V) (i : Nat) (v : Cx S) : (s.store i v).free = s.free := rfl
@[simp] theorem store_pending (s : Fbu S V) (i : Nat) (v : Cx S) : (s.store i v).pending = s.pending := rfl
@[simp] theorem store_replies (s : Fbu S V) (i : Nat) (v : Cx S) : (s.store i v).replies = s.replies := rfl

/-! Error entry. -/

@[simp] theorem raise_xmem (s : Fbu S V) (e : CmdError) (w : Word) : (s.raise e w).xmem = s.xmem := rfl
@[simp] theorem raise_nlen (s : Fbu S V) (e : CmdError) (w : Word) : (s.raise e w).nlen = s.nlen := rfl
@[simp] theorem raise_err (s : Fbu S V) (e : CmdError) (w : Word) : (s.raise e w).err = true := rfl
@[simp] theorem raise_errcode (s : Fbu S V) (e : CmdError) (w : Word) : (s.raise e w).errcode = errorCode e := rfl
@[simp] theorem raise_errcmd (s : Fbu S V) (e : CmdError) (w : Word) : (s.raise e w).errcmd = w := rfl
@[simp] theorem raise_seq (s : Fbu S V) (e : CmdError) (w : Word) : (s.raise e w).seq = s.seq := rfl
@[simp] theorem raise_free (s : Fbu S V) (e : CmdError) (w : Word) : (s.raise e w).free = s.free := rfl
@[simp] theorem raise_pending (s : Fbu S V) (e : CmdError) (w : Word) : (s.raise e w).pending = s.pending := rfl
@[simp] theorem raise_replies (s : Fbu S V) (e : CmdError) (w : Word) : (s.raise e w).replies = s.replies := rfl

/-! The return from an error. -/

@[simp] theorem clearError_xmem (s : Fbu S V) : s.clearError.xmem = s.xmem := rfl
@[simp] theorem clearError_nlen (s : Fbu S V) : s.clearError.nlen = s.nlen := rfl
@[simp] theorem clearError_err (s : Fbu S V) : s.clearError.err = false := rfl
@[simp] theorem clearError_errcode (s : Fbu S V) : s.clearError.errcode = 0 := rfl
@[simp] theorem clearError_errcmd (s : Fbu S V) : s.clearError.errcmd = 0 := rfl
@[simp] theorem clearError_seq (s : Fbu S V) : s.clearError.seq = s.seq := rfl
@[simp] theorem clearError_free (s : Fbu S V) : s.clearError.free = s.free := rfl
@[simp] theorem clearError_pending (s : Fbu S V) : s.clearError.pending = s.pending := rfl
@[simp] theorem clearError_replies (s : Fbu S V) : s.clearError.replies = s.replies := rfl

/-! Reset. -/

@[simp] theorem resetOp_xmem (s : Fbu S V) : s.resetOp.xmem = [] := rfl
@[simp] theorem resetOp_nlen (s : Fbu S V) : s.resetOp.nlen = 0 := rfl
@[simp] theorem resetOp_err (s : Fbu S V) : s.resetOp.err = false := rfl
@[simp] theorem resetOp_errcode (s : Fbu S V) : s.resetOp.errcode = 0 := rfl
@[simp] theorem resetOp_errcmd (s : Fbu S V) : s.resetOp.errcmd = 0 := rfl
@[simp] theorem resetOp_seq (s : Fbu S V) : s.resetOp.seq = Seq.rest := rfl
@[simp] theorem resetOp_free (s : Fbu S V) : s.resetOp.free = s.free := rfl
@[simp] theorem resetOp_pending (s : Fbu S V) : s.resetOp.pending = s.pending := rfl
@[simp] theorem resetOp_replies (s : Fbu S V) : s.resetOp.replies = s.replies := rfl

/-! A register read. -/

@[simp] theorem regRead_xmem (B : Build S V) (r : BitVec 2) (s : Fbu S V) : (regRead B r s).xmem = s.xmem := rfl
@[simp] theorem regRead_nlen (B : Build S V) (r : BitVec 2) (s : Fbu S V) : (regRead B r s).nlen = s.nlen := rfl
@[simp] theorem regRead_err (B : Build S V) (r : BitVec 2) (s : Fbu S V) : (regRead B r s).err = s.err := rfl
@[simp] theorem regRead_errcode (B : Build S V) (r : BitVec 2) (s : Fbu S V) : (regRead B r s).errcode = s.errcode := rfl
@[simp] theorem regRead_errcmd (B : Build S V) (r : BitVec 2) (s : Fbu S V) : (regRead B r s).errcmd = s.errcmd := rfl
@[simp] theorem regRead_seq (B : Build S V) (r : BitVec 2) (s : Fbu S V) : (regRead B r s).seq = s.seq := rfl
@[simp] theorem regRead_free (B : Build S V) (r : BitVec 2) (s : Fbu S V) : (regRead B r s).free = s.free := rfl
@[simp] theorem regRead_pending (B : Build S V) (r : BitVec 2) (s : Fbu S V) : (regRead B r s).pending = s.pending := rfl
@[simp] theorem regRead_replies (B : Build S V) (r : BitVec 2) (s : Fbu S V) : (regRead B r s).replies = s.replies ++ [.reg (regValue B s r)] := rfl

/-! A command presented at the port. -/

@[simp] theorem presented_xmem (s : Fbu S V) (w : Word) : (presented s w).xmem = s.xmem := rfl
@[simp] theorem presented_nlen (s : Fbu S V) (w : Word) : (presented s w).nlen = s.nlen := rfl
@[simp] theorem presented_err (s : Fbu S V) (w : Word) : (presented s w).err = s.err := rfl
@[simp] theorem presented_errcode (s : Fbu S V) (w : Word) : (presented s w).errcode = s.errcode := rfl
@[simp] theorem presented_errcmd (s : Fbu S V) (w : Word) : (presented s w).errcmd = s.errcmd := rfl
@[simp] theorem presented_seq (s : Fbu S V) (w : Word) : (presented s w).seq = Seq.rest := rfl
@[simp] theorem presented_free (s : Fbu S V) (w : Word) : (presented s w).free = s.free := rfl
@[simp] theorem presented_pending (s : Fbu S V) (w : Word) : (presented s w).pending = { wait := 0, txn := .cmdIssue w } :: s.pending := rfl
@[simp] theorem presented_replies (s : Fbu S V) (w : Word) : (presented s w).replies = s.replies := rfl

/-! The accessors of `SEQ` and `NLEN` read no other field. -/

theorem busy_congr {s t : Fbu S V} (h : t.seq = s.seq) : t.busy = s.busy := by
  unfold Fbu.busy; rw [h]

theorem len_congr {s t : Fbu S V} (h : t.nlen = s.nlen) : t.len = s.len := by
  unfold Fbu.len; rw [h]

theorem busy_rest (s : Fbu S V) (h : s.seq = Seq.rest) : s.busy = false := by
  simp [Fbu.busy, h, Seq.rest]

end Sys2Proof.Machine
end

