-- ==== Sys2Proof/Laws/Memory.lean ====
section
/-!
SUPPORT. The laws of the sample memory: read after write, and that every operation keeps the canonical form.
-/

namespace Sys2Proof.Machine

variable {S V : Type}

/-- Read after write: the written word gives the value, every other word what it gave. -/
theorem memRead_memWrite (m : Memory S) (i j : Nat) (v : Cx S) :
    memRead (memWrite m i v) j = if j = i then some v else memRead m j := by
  induction m with
  | nil => simp [memWrite, memRead]
  | cons p m ih =>
    obtain ⟨k, x⟩ := p
    by_cases hlt : i < k
    · simp [memWrite, hlt, memRead]
    · by_cases heq : i = k
      · subst heq; by_cases hji : j = i <;> simp [memWrite, memRead, hji]
      · by_cases hji : j = i
        · subst hji; simp [memWrite, hlt, heq, memRead, ih]
        · simp [memWrite, hlt, heq, memRead, ih, hji]

theorem memRising_mono {lo lo' hi : Nat} {m : Memory S} (hle : lo' ≤ lo) (h : memRising lo hi m = true) :
    memRising lo' hi m = true := by
  cases m with
  | nil => rfl
  | cons p m =>
    simp only [memRising, Bool.and_eq_true, decide_eq_true_eq] at h ⊢
    exact ⟨⟨by omega, h.1.2⟩, h.2⟩

/-- A write below the end keeps the indices rising. -/
theorem memRising_memWrite {lo hi i : Nat} {m : Memory S} (v : Cx S) (h : memRising lo hi m = true)
    (hlo : lo ≤ i) (hhi : i < hi) : memRising lo hi (memWrite m i v) = true := by
  induction m generalizing lo with
  | nil => simp [memWrite, memRising, hlo, hhi]
  | cons p m ih =>
    obtain ⟨k, x⟩ := p
    simp only [memRising, Bool.and_eq_true, decide_eq_true_eq] at h
    obtain ⟨⟨h1, h2⟩, h3⟩ := h
    unfold memWrite
    split_ifs with hlt heq
    · simp only [memRising, Bool.and_eq_true, decide_eq_true_eq]
      exact ⟨⟨hlo, hhi⟩, ⟨⟨by omega, h2⟩, h3⟩⟩
    · subst heq
      simp only [memRising, Bool.and_eq_true, decide_eq_true_eq]
      exact ⟨⟨hlo, hhi⟩, h3⟩
    · simp only [memRising, Bool.and_eq_true, decide_eq_true_eq]
      exact ⟨⟨h1, h2⟩, ih h3 (by omega)⟩

/-- Every write within the memory keeps the canonical form. -/
theorem memWf_memWrite {nmax i : Nat} {m : Memory S} (v : Cx S) (h : memWf nmax m = true) (hi : i < nmax) :
    memWf nmax (memWrite m i v) = true :=
  memRising_memWrite v h (Nat.zero_le i) hi

/-- The memory after reset is canonical. -/
theorem memWf_reset (n : Nat) : memWf n (Fbu.reset (S := S) (V := V)).xmem = true := rfl

theorem word_congr {s t : Fbu S V} (h : t.xmem = s.xmem) (i : Nat) : t.word i = s.word i := by
  unfold Fbu.word; rw [h]

@[simp] theorem word_store (s : Fbu S V) (i j : Nat) (v : Cx S) :
    (s.store i v).word j = if j = i then some v else s.word j :=
  memRead_memWrite s.xmem i j v

theorem nmax_pos (B : Build S V) : 0 < B.nmax := Nat.two_pow_pos _

/-! Reading a word changes nothing but the count of free values. -/

theorem load_written {B : Build S V} {s : Fbu S V} {i : Nat} {v : Cx S} (h : s.word i = some v) : s.load B i = (v, s) := by
  simp [Fbu.load, h]

theorem load_unwritten {B : Build S V} {s : Fbu S V} {i : Nat} (h : s.word i = none) :
    s.load B i = (B.freeWord s.free, { s with free := s.free + 1 }) := by
  simp [Fbu.load, h]

/-- Everything a read can do: give the word, or give a free value and count it. -/
theorem load_cases (B : Build S V) (s : Fbu S V) (i : Nat) :
    (∃ v, s.word i = some v ∧ s.load B i = (v, s)) ∨
      (s.word i = none ∧ s.load B i = (B.freeWord s.free, { s with free := s.free + 1 })) := by
  cases h : s.word i with
  | some v => exact .inl ⟨v, rfl, load_written h⟩
  | none => exact .inr ⟨rfl, load_unwritten h⟩

@[simp] theorem load_xmem (B : Build S V) (s : Fbu S V) (i : Nat) : (s.load B i).2.xmem = s.xmem := by
  rcases load_cases B s i with ⟨v, -, h⟩ | ⟨-, h⟩ <;> rw [h]
@[simp] theorem load_nlen (B : Build S V) (s : Fbu S V) (i : Nat) : (s.load B i).2.nlen = s.nlen := by
  rcases load_cases B s i with ⟨v, -, h⟩ | ⟨-, h⟩ <;> rw [h]
@[simp] theorem load_err (B : Build S V) (s : Fbu S V) (i : Nat) : (s.load B i).2.err = s.err := by
  rcases load_cases B s i with ⟨v, -, h⟩ | ⟨-, h⟩ <;> rw [h]
@[simp] theorem load_errcode (B : Build S V) (s : Fbu S V) (i : Nat) : (s.load B i).2.errcode = s.errcode := by
  rcases load_cases B s i with ⟨v, -, h⟩ | ⟨-, h⟩ <;> rw [h]
@[simp] theorem load_errcmd (B : Build S V) (s : Fbu S V) (i : Nat) : (s.load B i).2.errcmd = s.errcmd := by
  rcases load_cases B s i with ⟨v, -, h⟩ | ⟨-, h⟩ <;> rw [h]
@[simp] theorem load_seq (B : Build S V) (s : Fbu S V) (i : Nat) : (s.load B i).2.seq = s.seq := by
  rcases load_cases B s i with ⟨v, -, h⟩ | ⟨-, h⟩ <;> rw [h]
@[simp] theorem load_pending (B : Build S V) (s : Fbu S V) (i : Nat) : (s.load B i).2.pending = s.pending := by
  rcases load_cases B s i with ⟨v, -, h⟩ | ⟨-, h⟩ <;> rw [h]
@[simp] theorem load_replies (B : Build S V) (s : Fbu S V) (i : Nat) : (s.load B i).2.replies = s.replies := by
  rcases load_cases B s i with ⟨v, -, h⟩ | ⟨-, h⟩ <;> rw [h]
@[simp] theorem load_word (B : Build S V) (s : Fbu S V) (i j : Nat) : (s.load B i).2.word j = s.word j :=
  word_congr (load_xmem B s i) j

/-! Drawing NaNs changes nothing but the count of free values. -/

@[simp] theorem drawn_xmem (B : Build S V) (s : Fbu S V) (k : Nat) : (s.drawn B k).xmem = s.xmem := by unfold Fbu.drawn; split <;> rfl
@[simp] theorem drawn_nlen (B : Build S V) (s : Fbu S V) (k : Nat) : (s.drawn B k).nlen = s.nlen := by unfold Fbu.drawn; split <;> rfl
@[simp] theorem drawn_err (B : Build S V) (s : Fbu S V) (k : Nat) : (s.drawn B k).err = s.err := by unfold Fbu.drawn; split <;> rfl
@[simp] theorem drawn_errcode (B : Build S V) (s : Fbu S V) (k : Nat) : (s.drawn B k).errcode = s.errcode := by
  unfold Fbu.drawn; split <;> rfl
@[simp] theorem drawn_errcmd (B : Build S V) (s : Fbu S V) (k : Nat) : (s.drawn B k).errcmd = s.errcmd := by
  unfold Fbu.drawn; split <;> rfl
@[simp] theorem drawn_seq (B : Build S V) (s : Fbu S V) (k : Nat) : (s.drawn B k).seq = s.seq := by unfold Fbu.drawn; split <;> rfl
@[simp] theorem drawn_pending (B : Build S V) (s : Fbu S V) (k : Nat) : (s.drawn B k).pending = s.pending := by
  unfold Fbu.drawn; split <;> rfl
@[simp] theorem drawn_replies (B : Build S V) (s : Fbu S V) (k : Nat) : (s.drawn B k).replies = s.replies := by
  unfold Fbu.drawn; split <;> rfl
@[simp] theorem drawn_word (B : Build S V) (s : Fbu S V) (k j : Nat) : (s.drawn B k).word j = s.word j :=
  word_congr (drawn_xmem B s k) j

theorem drawn_steady {B : Build S V} (h : B.draws = false) (s : Fbu S V) (k : Nat) : s.drawn B k = s := by
  simp [Fbu.drawn, h]

/-- Where nothing is drawn, one record serves every operation. -/
theorem numAt_steady {B : Build S V} (h : B.draws = false) (n : Nat) : B.numAt n = B.numAt 0 := by
  unfold Build.draws at h
  unfold Build.numAt
  cases hN : B.numerics with
  | b64 policy => rw [hN] at h; cases policy <;> first | rfl | cases h
  | record R other => rfl
  | exact ops is => rfl

theorem nums_steady {B : Build S V} (h : B.draws = false) (s : Fbu S V) : s.nums B = steady (B.numAt 0) := by
  funext k; exact numAt_steady h _

end Sys2Proof.Machine
end

