-- ==== Sys2Proof/Laws/Bodies.lean ====
section
/-!
SUPPORT. What the elementary operations of the engine do: the words they give, and their frame.
-/

namespace Sys2Proof.Machine

variable {S V : Type}

/-- `t` is `s` with only the words in `P` and the count of free values changed. -/
structure Touches (P : Nat → Prop) (s t : Fbu S V) : Prop where
  nlen : t.nlen = s.nlen
  err : t.err = s.err
  errcode : t.errcode = s.errcode
  errcmd : t.errcmd = s.errcmd
  seq : t.seq = s.seq
  pending : t.pending = s.pending
  replies : t.replies = s.replies
  word : ∀ i, ¬ P i → t.word i = s.word i
  wf : ∀ n, (∀ i, P i → i < n) → memWf n s.xmem = true → memWf n t.xmem = true

theorem Touches.refl (P : Nat → Prop) (s : Fbu S V) : Touches P s s :=
  ⟨rfl, rfl, rfl, rfl, rfl, rfl, rfl, fun _ _ => rfl, fun _ _ h => h⟩

theorem Touches.trans {P : Nat → Prop} {s t u : Fbu S V} (h : Touches P s t) (k : Touches P t u) : Touches P s u :=
  ⟨k.nlen.trans h.nlen, k.err.trans h.err, k.errcode.trans h.errcode, k.errcmd.trans h.errcmd,
    k.seq.trans h.seq, k.pending.trans h.pending, k.replies.trans h.replies,
    fun i hi => (k.word i hi).trans (h.word i hi), fun n hn hw => k.wf n hn (h.wf n hn hw)⟩

theorem Touches.mono {P Q : Nat → Prop} {s t : Fbu S V} (h : Touches P s t) (hPQ : ∀ i, P i → Q i) : Touches Q s t :=
  { h with
    word := fun i hi => h.word i fun hp => hi (hPQ i hp)
    wf := fun n hn => h.wf n fun i hp => hn i (hPQ i hp) }

theorem touches_store (P : Nat → Prop) (s : Fbu S V) (i : Nat) (v : Cx S) (hi : P i) : Touches P s (s.store i v) :=
  ⟨rfl, rfl, rfl, rfl, rfl, rfl, rfl,
    fun j hj => by rw [word_store, if_neg]; rintro rfl; exact hj hi,
    fun n hn hw => memWf_memWrite v hw (hn i hi)⟩

theorem touches_load (B : Build S V) (P : Nat → Prop) (s : Fbu S V) (i : Nat) : Touches P s (s.load B i).2 :=
  ⟨by simp, by simp, by simp, by simp, by simp, by simp, by simp, by simp, fun n _ hw => by simpa using hw⟩

theorem touches_drawn (B : Build S V) (P : Nat → Prop) (s : Fbu S V) (k : Nat) : Touches P s (s.drawn B k) :=
  ⟨by simp, by simp, by simp, by simp, by simp, by simp, by simp, by simp, fun n _ hw => by simpa using hw⟩

theorem butterfly_touches (B : Build S V) (st a : Nat) (s : Fbu S V) :
    Touches (fun i => i = a ∨ i = pairSecond st a) s (butterfly B st a s) :=
  ((((touches_load B _ s a).trans (touches_load B _ _ _)).trans (touches_drawn B _ _ _)).trans
    (touches_store _ _ _ _ (Or.inl rfl))).trans (touches_store _ _ _ _ (Or.inr rfl))

theorem revBody_touches (B : Build S V) (l j : Nat) (s : Fbu S V) :
    Touches (fun i => i = j ∨ i = brev l j) s (revBody B l j s) := by
  unfold revBody
  split
  · exact (((touches_load B _ s j).trans (touches_load B _ _ _)).trans
      (touches_store _ _ _ _ (Or.inl rfl))).trans (touches_store _ _ _ _ (Or.inr rfl))
  · exact Touches.refl _ _

theorem cnjBody_touches (B : Build S V) (j : Nat) (s : Fbu S V) : Touches (fun i => i = j) s (cnjBody B j s) :=
  (touches_load B _ s j).trans (touches_store _ _ _ _ rfl)

theorem sclBody_touches (B : Build S V) (l j : Nat) (s : Fbu S V) : Touches (fun i => i = j) s (sclBody B l j s) :=
  ((touches_load B _ s j).trans (touches_drawn B _ _ _)).trans (touches_store _ _ _ _ rfl)

/-! The values, when the operands have been written. -/

theorem half_pos (st : Nat) : 0 < half st := Nat.two_pow_pos _

theorem butterfly_written {B : Build S V} {st a : Nat} {s : Fbu S V} {e o : Cx S} (he : s.word a = some e)
    (ho : s.word (pairSecond st a) = some o) :
    butterfly B st a s =
      ((s.drawn B bfOps).store a (BF (s.nums B) e o (tw B (a % half st) st)).1).store (pairSecond st a)
        (BF (s.nums B) e o (tw B (a % half st) st)).2 := by
  unfold butterfly
  simp only [load_written he, load_written ho]

theorem cnjBody_written {B : Build S V} {j : Nat} {s : Fbu S V} {v : Cx S} (h : s.word j = some v) :
    cnjBody B j s = s.store j (cconj (B.numAt 0) v) := by
  unfold cnjBody; rw [load_written h]

theorem sclBody_written {B : Build S V} {l j : Nat} {s : Fbu S V} {v : Cx S} (h : s.word j = some v) :
    sclBody B l j s = (s.drawn B scaleOps).store j (cscale (s.nums B) v l) := by
  unfold sclBody; rw [load_written h]

theorem revBody_stays {B : Build S V} {l j : Nat} {s : Fbu S V} (h : ¬ j < brev l j) : revBody B l j s = s := by
  simp [revBody, h]

theorem revBody_swaps {B : Build S V} {l j : Nat} {s : Fbu S V} {x y : Cx S} (h : j < brev l j) (hx : s.word j = some x)
    (hy : s.word (brev l j) = some y) : revBody B l j s = (s.store j y).store (brev l j) x := by
  unfold revBody; rw [if_pos h, load_written hx]; simp only [load_written hy]

/-! Loops. -/

theorem forBelow_zero (body : Nat → Fbu S V → Fbu S V) (s : Fbu S V) : forBelow 0 body s = s := rfl

theorem forBelow_succ (n : Nat) (body : Nat → Fbu S V → Fbu S V) (s : Fbu S V) :
    forBelow (n + 1) body s = body n (forBelow n body s) := rfl

/-- A loop touches what its bodies touch. -/
theorem forBelow_touches {P : Nat → Prop} {n : Nat} {body : Nat → Fbu S V → Fbu S V}
    (h : ∀ j, j < n → ∀ s, Touches P s (body j s)) (s : Fbu S V) : Touches P s (forBelow n body s) := by
  induction n with
  | zero => exact Touches.refl _ _
  | succ n ih => exact (ih fun j hj => h j (by omega)).trans (h n (by omega) _)

end Sys2Proof.Machine
end

