-- ==== Sys2Proof/Laws/Checks.lean ====
section
/-!
SUPPORT. Everything the acceptance checks, the meanings, the engine step and the machine's step can answer, said once.
-/

namespace Sys2Proof.Machine

variable {S V : Type}

/-- Everything the first two checks can answer. -/
theorem accepted_cases (s : Fbu S V) (run : Fbu S V → Out S V) :
    (s.busy = true ∧ accepted s run = .next s) ∨
      (s.busy = false ∧ s.err = true ∧ accepted s run = .next s) ∨
      (s.busy = false ∧ s.err = false ∧ accepted s run = run s) := by
  unfold accepted
  cases hb : s.busy <;> cases he : s.err <;> simp

theorem accepted_ready {s : Fbu S V} (h : Ready s) (run : Fbu S V → Out S V) : accepted s run = run s := by
  simp [accepted, h.1, h.2]

theorem accepted_busy {s : Fbu S V} (h : s.busy = true) (run : Fbu S V → Out S V) : accepted s run = .next s := by
  simp [accepted, h]

theorem accepted_dropped {s : Fbu S V} (hb : s.busy = false) (he : s.err = true) (run : Fbu S V → Out S V) :
    accepted s run = .next s := by
  simp [accepted, hb, he]

/-- Everything the checks of a datapath command up to the length guard can answer. -/
theorem guarded_cases (B : Build S V) (i : Instr) (s : Fbu S V) (run : Nat → Nat → Out S V) :
    ((s.busy = true ∨ s.err = true) ∧ guarded B i s run = .next s) ∨
      (Ready s ∧ ispow2 s.len = false ∧ guarded B i s run = failed s .invalidLength i) ∨
      (Ready s ∧ ispow2 s.len = true ∧ B.nmax < s.len ∧ guarded B i s run = .fault .frameBeyondMemory) ∨
      (Ready s ∧ ispow2 s.len = true ∧ s.len ≤ B.nmax ∧ guarded B i s run = run s.len (log2 s.len)) := by
  rcases accepted_cases s fun s => if ispow2 s.len then
      if s.len ≤ B.nmax then run s.len (log2 s.len) else .fault .frameBeyondMemory
    else failed s .invalidLength i with ⟨h, e⟩ | ⟨h, h', e⟩ | ⟨h, h', e⟩
  · exact .inl ⟨.inl h, e⟩
  · exact .inl ⟨.inr h', e⟩
  · cases hp : ispow2 s.len with
    | false => exact .inr (.inl ⟨⟨h, h'⟩, rfl, by rw [guarded, e]; simp [hp]⟩)
    | true =>
      by_cases hn : s.len ≤ B.nmax
      · exact .inr (.inr (.inr ⟨⟨h, h'⟩, rfl, hn, by rw [guarded, e]; simp [hp, hn]⟩))
      · exact .inr (.inr (.inl ⟨⟨h, h'⟩, rfl, by omega, by rw [guarded, e]; simp [hp, hn]⟩))

/-- What a meaning can make of a state when it answers a next state. -/
inductive Effect (B : Build S V) (i : Instr) (s t : Fbu S V) : Prop where
  /-- Held, dropped, or `NOP`. -/
  | same (h : t = s)
  /-- Error entry. -/
  | error (e : CmdError) (ready : Ready s) (h : t = s.raise e (encode i))
  /-- `SETN`. -/
  | length (n : Nat) (ready : Ready s) (le : n ≤ B.nmax) (h : t = { s with nlen := BitVec.ofNat 22 n })
  /-- `CLRERR`. -/
  | cleared (idle : s.busy = false) (h : t = s.clearError)
  /-- `BFLY`. -/
  | pair (st a : Nat) (ready : Ready s) (pow : ispow2 s.len = true) (le : s.len ≤ B.nmax)
      (stage : legalStage (log2 s.len) st = true) (first : legalFirst s.len st a = true) (h : t = butterfly B st a s)
  /-- A multi-step command. -/
  | start (p : Phase) (m : Mac) (st : Nat) (ready : Ready s) (pow : ispow2 s.len = true) (le : s.len ≤ B.nmax)
      (which : (p = .rev ∧ m = .none ∧ st = 0) ∨ (p = .bfy ∧ m = .none ∧ legalStage (log2 s.len) st = true) ∨
        (p = .cnj1 ∧ m = .none ∧ st = 0) ∨ (p = .scl ∧ m = .none ∧ st = 0) ∨
        (p = .rev ∧ m = .fft ∧ st = 0) ∨ (p = .cnj1 ∧ m = .ifft ∧ st = 0))
      (h : t = { s with seq := { phase := p, mac := m, s := st, j := 0 } })

theorem guarded_start_effect {B : Build S V} {i : Instr} {s t : Fbu S V} {p : Phase} {m : Mac} {st : Nat}
    (hk : guarded B i s (fun _ _ => started s p m st) = .next t)
    (which : (p = .rev ∧ m = .none ∧ st = 0) ∨ (p = .cnj1 ∧ m = .none ∧ st = 0) ∨
      (p = .scl ∧ m = .none ∧ st = 0) ∨ (p = .rev ∧ m = .fft ∧ st = 0) ∨ (p = .cnj1 ∧ m = .ifft ∧ st = 0)) :
    Effect B i s t := by
  rcases guarded_cases B i s fun _ _ => started s p m st with ⟨-, e⟩ | ⟨r, -, e⟩ | ⟨-, -, -, e⟩ | ⟨r, hp, hn, e⟩
  · rw [e] at hk; cases hk; exact .same rfl
  · rw [e] at hk; cases hk; exact .error _ r rfl
  · rw [e] at hk; cases hk
  · rw [e] at hk; cases hk; exact .start p m st r hp hn (by tauto) rfl

/-- Everything a command can do when it answers a next state. -/
theorem execOf_effect {B : Build S V} {i : Instr} {s t : Fbu S V} (h : execOf B i s = .next t) : Effect B i s t := by
  cases i with
  | nop =>
    rcases accepted_cases s fun s => .next s with ⟨-, e⟩ | ⟨-, -, e⟩ | ⟨-, -, e⟩ <;>
      (rw [execOf, nopOf, e] at h; cases h; exact .same rfl)
  | setn n =>
    rw [execOf, setnOf] at h
    rcases accepted_cases s fun s => if n ≤ B.nmax then .next { s with nlen := BitVec.ofNat 22 n }
        else failed s .lengthRange (.setn n) with ⟨-, e⟩ | ⟨-, -, e⟩ | ⟨h1, h2, e⟩
    · rw [e] at h; cases h; exact .same rfl
    · rw [e] at h; cases h; exact .same rfl
    · rw [e] at h
      split at h
      · next hn => cases h; exact .length n ⟨h1, h2⟩ hn rfl
      · cases h; exact .error _ ⟨h1, h2⟩ rfl
  | clrerr =>
    rw [execOf, clrerrOf] at h
    cases hb : s.busy <;> rw [hb] at h <;> cases h
    · exact .cleared hb rfl
    · exact .same rfl
  | bitrev => exact guarded_start_effect h (.inl ⟨rfl, rfl, rfl⟩)
  | conj => exact guarded_start_effect h (.inr (.inl ⟨rfl, rfl, rfl⟩))
  | scale => exact guarded_start_effect h (.inr (.inr (.inl ⟨rfl, rfl, rfl⟩)))
  | fft => exact guarded_start_effect h (.inr (.inr (.inr (.inl ⟨rfl, rfl, rfl⟩))))
  | ifft => exact guarded_start_effect h (.inr (.inr (.inr (.inr ⟨rfl, rfl, rfl⟩))))
  | stage st =>
    rw [execOf, stageOf] at h
    rcases guarded_cases B (.stage st) s fun _ l => if legalStage l st then started s .bfy .none st
        else failed s .badOperand (.stage st) with ⟨-, e⟩ | ⟨r, -, e⟩ | ⟨-, -, -, e⟩ | ⟨r, hp, hn, e⟩
    · rw [e] at h; cases h; exact .same rfl
    · rw [e] at h; cases h; exact .error _ r rfl
    · rw [e] at h; cases h
    · rw [e] at h
      split at h
      · next hs => cases h; exact .start _ _ _ r hp hn (.inr (.inl ⟨rfl, rfl, hs⟩)) rfl
      · cases h; exact .error _ r rfl
  | bfly st a =>
    rw [execOf, bflyOf] at h
    rcases guarded_cases B (.bfly st a) s fun n l => if legalStage l st then
          if legalFirst n st a then .next (butterfly B st a s) else failed s .badOperand (.bfly st a)
        else failed s .badOperand (.bfly st a) with ⟨-, e⟩ | ⟨r, -, e⟩ | ⟨-, -, -, e⟩ | ⟨r, hp, hn, e⟩
    · rw [e] at h; cases h; exact .same rfl
    · rw [e] at h; cases h; exact .error _ r rfl
    · rw [e] at h; cases h
    · rw [e] at h
      split at h
      · next hs =>
        split at h
        · next hf => cases h; exact .pair st a r hp hn hs hf rfl
        · cases h; exact .error _ r rfl
      · cases h; exact .error _ r rfl

theorem exec_effect {c : Config} {i : Instr} {s : Fbu c.Scalar c.Port} {t : State} (h : exec i ⟨c, s⟩ = .next t) :
    ∃ f, t = ⟨c, f⟩ ∧ Effect (build c) i s f := by
  rw [exec_mk] at h
  obtain ⟨f, ho, rfl⟩ := lift_eq_next h
  exact ⟨f, rfl, execOf_effect ho⟩

/-- Everything an engine step can do when it answers a next state. -/
theorem engineStep_effect {B : Build S V} {s t : Fbu S V} (h : engineStep B s = .next t) :
    runnable B s = true ∧ ∃ fin, phaseEnd (log2 s.len) s.seq = some fin ∧
      t = { phaseBody B (log2 s.len) s.seq s with seq := advance s.len s.seq fin } := by
  unfold engineStep at h
  split at h
  · next hr =>
    refine ⟨hr, ?_⟩
    split at h
    · cases h
    · next fin hf => cases h; exact ⟨fin, hf, rfl⟩
  · cases h

theorem engineStep_runs {B : Build S V} {s : Fbu S V} {fin : Seq} (hr : runnable B s = true)
    (hf : phaseEnd (log2 s.len) s.seq = some fin) :
    engineStep B s = .next { phaseBody B (log2 s.len) s.seq s with seq := advance s.len s.seq fin } := by
  simp [engineStep, hr, hf]

theorem cmdIssue_legal {B : Build S V} {w : Word} {i : Instr} (h : decode w = .ok i) (s : Fbu S V) : cmdIssue B w s = execOf B i s := by
  simp [cmdIssue, h]

theorem cmdIssue_illegal {B : Build S V} {w : Word} {e : DecodeError} (h : decode w = .error e) (s : Fbu S V) :
    cmdIssue B w s = illegal w s := by
  simp [cmdIssue, h]

/-- Everything the FBU's next step can be. -/
theorem nextStep_cases (B : Build S V) (s : Fbu S V) :
    (s.pending = [] ∧ s.busy = false ∧ nextStep B s = .next s) ∨
      (s.pending = [] ∧ s.busy = true ∧ nextStep B s = engineStep B s) ∨
      (∃ r rest, s.pending = r :: rest ∧ s.busy = true ∧ mustWait r = true ∧
        nextStep B s = engineStep B { s with pending := tick s.pending }) ∨
      (∃ r rest, s.pending = r :: rest ∧ (s.busy = true → mustWait r = false) ∧
        nextStep B s = transact B r.txn { s with pending := rest }) := by
  unfold nextStep
  cases hp : s.pending with
  | nil => cases hb : s.busy <;> simp
  | cons r rest => cases hb : s.busy <;> cases hm : mustWait r <;> simp [hm]

/-- Everything the machine's step can be when it answers a next state. -/
theorem step_cases {c : Config} {s : Fbu c.Scalar c.Port} {t : State} (h : step ⟨c, s⟩ = .next t) :
    ∃ f, t = ⟨c, f⟩ ∧ nextStep (build c) s = .next f := by
  rw [step_mk] at h
  obtain ⟨f, ho, rfl⟩ := lift_eq_next h
  exact ⟨f, rfl, ho⟩

end Sys2Proof.Machine
end

