-- ==== Sys2Proof/Laws/PerInstr.lean ====
section
/-!
SUPPORT. The per-instruction family `OpcodeField`: bits 31:26 of every encoded well-formed command are its opcode
(`30_encoding.md` R50, R53).
-/

namespace Sys2Proof.Laws.OpcodeField

/-- The opcode of a command stands in bits 31:26 of its word, whatever its operands. -/
def Statement (i : Instr) : Prop := i.wellFormed = true → bits (encode i) 31 26 = opcode i

/-- Fields below bit 26 leave the opcode alone. -/
theorem opcode_of_fields {op f : Nat} (ho : op < 2 ^ 6) (hf : f < 2 ^ 26) :
    bits (BitVec.ofNat 32 (op * 2 ^ 26 + f)) 31 26 = op := by
  unfold bits
  rw [BitVec.toNat_ofNat]
  omega

theorem nop : Statement .nop := fun _ => by decide
theorem setn (n : Nat) : Statement (.setn n) := fun h => by
  simp only [Instr.wellFormed, decide_eq_true_eq] at h
  exact opcode_of_fields (op := 1) (f := n) (by decide) (by omega)
theorem clrerr : Statement .clrerr := fun _ => by decide
theorem bitrev : Statement .bitrev := fun _ => by decide
theorem bfly (st a : Nat) : Statement (.bfly st a) := fun h => by
  simp only [Instr.wellFormed, Bool.and_eq_true, decide_eq_true_eq] at h
  exact opcode_of_fields (op := 9) (f := st * 2 ^ 21 + a) (by decide) (by omega)
theorem stage (st : Nat) : Statement (.stage st) := fun h => by
  simp only [Instr.wellFormed, decide_eq_true_eq] at h
  exact opcode_of_fields (op := 10) (f := st * 2 ^ 21) (by decide) (by omega)
theorem conj : Statement .conj := fun _ => by decide
theorem scale : Statement .scale := fun _ => by decide
theorem fft : Statement .fft := fun _ => by decide
theorem ifft : Statement .ifft := fun _ => by decide

end Sys2Proof.Laws.OpcodeField
end

