-- ==== Sys2Proof/Laws/Decode.lean ====
section
/-!
SUPPORT. Everything the decoder can answer, and the number a well-formed command is encoded as.
-/

namespace Sys2Proof

theorem ifZero_ok {z : Nat} {i j : Instr} : ifZero z i = .ok j ↔ z = 0 ∧ j = i := by
  unfold ifZero; split <;> simp_all [eq_comm]

theorem ifZero_error {z : Nat} {i : Instr} {e : DecodeError} :
    ifZero z i = .error e ↔ z ≠ 0 ∧ e = .nonzeroZeroField := by
  unfold ifZero; split <;> simp_all [eq_comm]

/-- Everything the decoder can answer for a legal word. -/
theorem decode_ok_cases {w : Word} {i : Instr} (h : decode w = .ok i) :
    (bits w 31 26 = 0 ∧ bits w 25 0 = 0 ∧ i = .nop) ∨
      (bits w 31 26 = 1 ∧ bits w 25 22 = 0 ∧ i = .setn (bits w 21 0)) ∨
      (bits w 31 26 = 2 ∧ bits w 25 0 = 0 ∧ i = .clrerr) ∨
      (bits w 31 26 = 8 ∧ bits w 25 0 = 0 ∧ i = .bitrev) ∨
      (bits w 31 26 = 9 ∧ i = .bfly (bits w 25 21) (bits w 20 0)) ∨
      (bits w 31 26 = 10 ∧ bits w 20 0 = 0 ∧ i = .stage (bits w 25 21)) ∨
      (bits w 31 26 = 11 ∧ bits w 25 0 = 0 ∧ i = .conj) ∨
      (bits w 31 26 = 12 ∧ bits w 25 0 = 0 ∧ i = .scale) ∨
      (bits w 31 26 = 16 ∧ bits w 25 0 = 0 ∧ i = .fft) ∨
      (bits w 31 26 = 17 ∧ bits w 25 0 = 0 ∧ i = .ifft) := by
  unfold decode at h
  generalize bits w 31 26 = op at *
  generalize bits w 25 0 = z at *
  generalize bits w 25 22 = z1 at *
  generalize bits w 20 0 = z2 at *
  generalize bits w 25 21 = z3 at *
  generalize bits w 21 0 = z4 at *
  dsimp only at h
  split_ifs at h with h1 h2 h3 h4 h5 h6 h7 h8 h9 h10
  · exact .inl ⟨h1, ifZero_ok.1 h⟩
  · exact .inr (.inl ⟨h2, ifZero_ok.1 h⟩)
  · exact .inr (.inr (.inl ⟨h3, ifZero_ok.1 h⟩))
  · exact .inr (.inr (.inr (.inl ⟨h4, ifZero_ok.1 h⟩)))
  · cases h; exact .inr (.inr (.inr (.inr (.inl ⟨h5, rfl⟩))))
  · exact .inr (.inr (.inr (.inr (.inr (.inl ⟨h6, ifZero_ok.1 h⟩)))))
  · exact .inr (.inr (.inr (.inr (.inr (.inr (.inl ⟨h7, ifZero_ok.1 h⟩))))))
  · exact .inr (.inr (.inr (.inr (.inr (.inr (.inr (.inl ⟨h8, ifZero_ok.1 h⟩)))))))
  · exact .inr (.inr (.inr (.inr (.inr (.inr (.inr (.inr (.inl ⟨h9, ifZero_ok.1 h⟩))))))))
  · exact .inr (.inr (.inr (.inr (.inr (.inr (.inr (.inr (.inr ⟨h10, ifZero_ok.1 h⟩))))))))

theorem opcode_lt (i : Instr) : opcode i < 2 ^ 6 := by cases i <;> simp [opcode]

theorem fields_lt {i : Instr} (h : i.wellFormed = true) : fields i < 2 ^ 26 := by
  cases i <;> simp only [Instr.wellFormed, Bool.and_eq_true, decide_eq_true_eq] at h <;>
    simp only [fields] <;> omega

/-- The number a well-formed command is encoded as: no bit is lost. -/
theorem encode_toNat {i : Instr} (h : i.wellFormed = true) :
    (encode i).toNat = opcode i * 2 ^ 26 + fields i := by
  have ho := opcode_lt i
  have hf := fields_lt h
  unfold encode
  rw [BitVec.toNat_ofNat]
  omega

/-- A word is encoded as itself when its number is opcode and fields. -/
theorem encode_eq_of_toNat {i : Instr} {w : Word} (h : w.toNat = opcode i * 2 ^ 26 + fields i) : encode i = w := by
  have hw := w.isLt
  apply BitVec.eq_of_toNat_eq
  unfold encode
  rw [BitVec.toNat_ofNat, ← h]
  omega

end Sys2Proof
end

