-- ==== Sys2Proof/Tests/Slice0.lean ====
section
/-!
SUPPORT. Tests: words written out from the encodings of `30_encoding.md`, single steps on small states with the results
of `95_test_vectors.md`, and for every statement with hypotheses a state or an operand that meets them.
-/

namespace Sys2Proof.Tests

set_option Elab.async false

open Sys2Proof Sys2Proof.Machine

/-! ## Small states -/

/-- The words `xs` from index `i` on. -/
def listed : Nat → List CWord → Memory Scalar
  | _, [] => []
  | i, x :: xs => (i, x) :: listed (i + 1) xs

/-- An FBU of `NUM_B64`. -/
abbrev F := Fbu Scalar (BitVec 128)

/-- The build of `NUM_B64` with `LOGNMAX = l + 1`, and the default build. -/
def deep (l : Fin 21) : Build Scalar (BitVec 128) := build (Config.b64 l .canonical)
def B : Build Scalar (BitVec 128) := deep 9

/-- A configuration of 16-bit scalars. -/
def narrow : Config := { logNMaxPred := 2, numFmt := .other 16, nanPolicy := .canonical }

/-- An idle FBU with `NLEN = n` and the first words of `XMEM` written. -/
def mk (n : Nat) (xs : List CWord) : F :=
  { (Fbu.reset : F) with nlen := BitVec.ofNat 22 n, xmem := listed 0 xs }

/-- The machine of the default configuration with this FBU. -/
def on (s : F) : State := { cfg := Config.default, fbu := s }

/-- The FBU of a next state in the default configuration. -/
def out (o : Host.Outcome State Fault Refusal) : Option F :=
  match o with
  | .next t => if h : t.cfg = Config.default then some (h ▸ t.fbu : Fbu Config.default.Scalar Config.default.Port) else none
  | .fault _ => none
  | .refused _ => none

/-- The words `0 .. k−1` of a next state, none where a word is unwritten. -/
def wordsOf (k : Nat) (o : Option F) : List (Option CWord) :=
  match o with
  | some t => (List.range k).map t.word
  | none => []

/-- `SEQ` of the next state. -/
def seqOf (o : Option F) : Option Seq := o.map Fbu.seq

/-- `STATUS` and `ERRCMD` of the next state. -/
def reportOf (o : Option F) : Option (Word × Word) := o.map fun t => (regValue B t 1, regValue B t 3)

def c (re im : Scalar) : CWord := { re := re, im := im }

/-! Scalars, as `95_test_vectors.md` writes them. -/

def p0 : Scalar := 0x0000000000000000
def m0 : Scalar := 0x8000000000000000
def one : Scalar := 0x3FF0000000000000
def m1 : Scalar := 0xBFF0000000000000
def two : Scalar := 0x4000000000000000
def m2 : Scalar := 0xC000000000000000
def three : Scalar := 0x4008000000000000
def four : Scalar := 0x4010000000000000
def m4 : Scalar := 0xC010000000000000
def six : Scalar := 0x4018000000000000
def ten : Scalar := 0x4024000000000000
def twelve : Scalar := 0x4028000000000000
def pInf : Scalar := 0x7FF0000000000000
def mInf : Scalar := 0xFFF0000000000000
def cNaN : Scalar := 0x7FF8000000000000
def biggest : Scalar := 0x7FEFFFFFFFFFFFFF
def r : Scalar := 0x3FE6A09E667F3BCD
def mr : Scalar := 0xBFE6A09E667F3BCD

/-! ## WellFormed: one ill-formed term for each check, and the largest operand each check admits -/

theorem test_setn_too_wide : Instr.wellFormed (.setn 4194304) = false := by decide
theorem test_setn_widest : Instr.wellFormed (.setn 4194303) = true := by decide
theorem test_bfly_stage_too_wide : Instr.wellFormed (.bfly 32 0) = false := by decide
theorem test_bfly_index_too_wide : Instr.wellFormed (.bfly 0 2097152) = false := by decide
theorem test_bfly_widest : Instr.wellFormed (.bfly 31 2097151) = true := by decide
theorem test_stage_too_wide : Instr.wellFormed (.stage 32) = false := by decide
theorem test_stage_widest : Instr.wellFormed (.stage 31) = true := by decide

/-! ## Decoding, from `95_test_vectors.md` V11 and the fields of `30_encoding.md` R51 to R53 -/

theorem test_decode_nop : decode 0b00000000000000000000000000000000 = .ok .nop := by decide +kernel
theorem test_decode_setn : decode 0b00000100000000000000010000000001 = .ok (.setn 1025) := by decide +kernel
theorem test_decode_clrerr : decode 0b00001000000000000000000000000000 = .ok .clrerr := by decide +kernel
theorem test_decode_bitrev : decode 0b00100000000000000000000000000000 = .ok .bitrev := by decide +kernel
theorem test_decode_bfly : decode 0b00100100011000000000000000000011 = .ok (.bfly 3 3) := by decide +kernel
theorem test_decode_stage : decode 0b00101000001000000000000000000000 = .ok (.stage 1) := by decide +kernel
theorem test_decode_conj : decode 0b00101100000000000000000000000000 = .ok .conj := by decide +kernel
theorem test_decode_scale : decode 0b00110000000000000000000000000000 = .ok .scale := by decide +kernel
theorem test_decode_fft : decode 0b01000000000000000000000000000000 = .ok .fft := by decide +kernel
theorem test_decode_ifft : decode 0b01000100000000000000000000000000 = .ok .ifft := by decide +kernel
theorem test_decode_zero_fields :
    [0x00000001, 0x04400000, 0x08000001, 0x28200001, 0x40000001].map decode =
      List.replicate 5 (.error .nonzeroZeroField) := by decide +kernel
theorem test_decode_unassigned :
    [0x0C000000, 0x1C000000, 0x34000000, 0x48000000, 0xFFFFFFFF].map decode =
      List.replicate 5 (.error .unassignedOpcode) := by decide +kernel
/-- The encodings listed under V11. -/
theorem test_encode :
    [Instr.setn 0, .setn 2097152, .bfly 1 0, .bfly 1 2, .bfly 2 1, .bfly 10 511, .stage 10, .stage 21].map encode =
      [0x04000000, 0x04200000, 0x24200000, 0x24200002, 0x24400001, 0x254001FF, 0x29400000, 0x2AA00000] := by
  decide +kernel
/-- `54` of the 64 opcodes are unassigned (`30_encoding.md` R53). -/
theorem test_unassigned_count :
    ((List.range 64).filter fun op =>
      decode (BitVec.ofNat 32 (op * 2 ^ 26)) == .error .unassignedOpcode).length = 54 := by decide +kernel
theorem test_table_word : decodeTableWord 32 0x24400001 = some (.bfly 2 1) := by decide +kernel

/-! ## Arithmetic, from `95_test_vectors.md` V12 to V16 -/

open Binary64 in
theorem test_fadd :
    [fadd cNaN one 0x3CA0000000000000, fadd cNaN 0x3FF0000000000001 0x3CA0000000000000, fadd cNaN p0 m0,
      fadd cNaN m0 m0, fadd cNaN biggest 0x7C90000000000000, fadd cNaN biggest 0x7C8FFFFFFFFFFFFF,
      fadd cNaN 1 1, fsub cNaN 0x0010000000000000 0x000FFFFFFFFFFFFF, fadd cNaN pInf mInf,
      fadd cNaN 0xFFF8000000000123 one, fsub cNaN m0 p0] =
    [one, 0x3FF0000000000002, p0, m0, pInf, biggest, 2, 1, cNaN, cNaN, m0] := by decide +kernel

open Binary64 in
theorem test_fmul :
    [fmul cNaN three m2, fmul cNaN p0 m2, fmul cNaN p0 pInf, fmul cNaN mInf two, fmul cNaN biggest two,
      fmul cNaN 1 0x3FE0000000000000, fmul cNaN 0x8000000000000001 0x3FE0000000000000,
      fmul cNaN 3 0x3FE0000000000000, fmul cNaN 0x3FF0000000000001 0x3FF0000000000001, fmul cNaN r r,
      fmul cNaN r three] =
    [0xC018000000000000, m0, cNaN, mInf, pInf, p0, m0, 2, 0x3FF0000000000002, 0x3FE0000000000001,
      0x4000F876CCDF6CDA] := by decide +kernel

open Binary64 in
theorem test_fneg_fdivN :
    [fneg p0, fneg cNaN, fneg 0x7FF0000000000001, fdivN cNaN twelve 2, fdivN cNaN one 21,
      fdivN cNaN 0x0010000000000000 1, fdivN cNaN 1 1, fdivN cNaN 0x8000000000000001 1, fdivN cNaN 3 1,
      fdivN cNaN 5 2, fdivN cNaN 6 2, fdivN cNaN m0 5, fdivN cNaN pInf 3, fdivN cNaN 0xFFF8000000000000 0] =
    [m0, 0xFFF8000000000000, 0xFFF0000000000001, three, 0x3EA0000000000000, 0x0008000000000000, p0, m0, 2, 1, 2,
      m0, pInf, cNaN] := by decide +kernel

/-- The first operand of `cmul` is the twiddle: the order of the operands of its addition (V15). -/
theorem test_cmul :
    [cmul (steady (B.numAt 0)) (c r mr) (c three four),
      cmul (steady (B.numAt 0)) (c one p0) (c m0 0xC014000000000000),
      cmul (steady (B.numAt 0)) (c one p0) (c one pInf)] =
    [c 0x4013CC8A99AF5454 0x3FE6A09E667F3BCC, c p0 0xC014000000000000, c cNaN pInf] := by decide +kernel

theorem test_BF :
    BF (steady (B.numAt 0)) (c m4 four) (c m4 four) (c r mr) =
      (c m4 0x4023504F333F9DE6, c m4 0xBFFA827999FCEF34) := by decide +kernel

/-- Under `draw` an invalid operation gives some NaN, and the next operation may give another (V40's last line). -/
theorem test_draw (n : Nat) :
    ((build (Config.b64 9 .draw)).numAt n).fadd pInf mInf = Binary64.nanOf (Config.freeNaN n) := by
  show Binary64.fadd (Binary64.nanOf (Config.freeNaN n)) pInf mInf = _
  unfold Binary64.fadd
  rw [if_neg (by decide), if_pos (by decide)]

/-! ## Indices and the twiddle ROM, from `95_test_vectors.md` V17, V18 -/

theorem test_brev : [brev 3 1, brev 3 3, brev 3 5, brev 4 7, brev 10 341] = [4, 6, 5, 14, 682] := by decide +kernel

theorem test_pairs :
    (List.range 4).map (fun j => (pairFirst 2 j, pairSecond 2 (pairFirst 2 j), pairPos 2 j,
      romIndex B (pairPos 2 j) 2)) =
    [(0, 2, 0, 0), (1, 3, 1, 256), (4, 6, 0, 0), (5, 7, 1, 256)] := by decide +kernel

theorem test_twiddles :
    [tw B 1 2, tw B 3 3, tw B 5 4, tw B 1 10,
      tw B 511 10] =
    [c p0 m1, c mr mr, c 0xBFD87DE2A6AEA963 0xBFED906BCF328D46, c 0x3FEFFFD8858E8A92 0xBF7921F0FE670071,
      c 0xBFEFFFD8858E8A92 0xBF7921F0FE670071] := by decide +kernel

/-- The computed entries and the printed table agree where both exist (`41_twiddle_rom.md` R93). -/
theorem test_computed_twiddles :
    [1, 7, 128, 200, 255, 257, 300, 511].map (computedEntry 10) =
      [1, 7, 128, 200, 255, 257, 300, 511].map tableRow := by decide +kernel

/-! ## Commands, one step each -/

theorem test_nop : out (exec .nop (on (mk 8 [c one two]))) = some (mk 8 [c one two]) := by decide +kernel
/-- V19: no error yet, though 6 is no power of two. -/
theorem test_setn : (out (exec (.setn 6) (on (mk 4 [])))).map Fbu.nlen = some 6 := by decide +kernel
theorem test_setn_too_long : reportOf (out (exec (.setn 2048) (on (mk 8 [])))) = some (0x22, 0x04000800) := by decide +kernel
/-- V19: the word of `CLRERR` with bit 0 set is dropped, `CLRERR` is not. -/
theorem test_clrerr_dropped :
    reportOf (nextOf <| cmdIssue B 0x08000001 ((mk 6 []).raise .invalidLength 0x2C000000)) = some (0x12, 0x2C000000) := by
  decide +kernel
theorem test_clrerr :
    reportOf (nextOf <| cmdIssue B 0x08000000 ((mk 6 []).raise .invalidLength 0x2C000000)) = some (0, 0) := by decide +kernel
/-- V21: the second word of the pair is two further, and the twiddle is `TW(1, 2) = −i`. -/
theorem test_bfly :
    wordsOf 4 (out (exec (.bfly 2 1) (on (mk 4 [c four p0, c m2 p0, c six p0, c m2 p0])))) =
      [some (c four p0), some (c m2 two), some (c six p0), some (c m2 m2)] := by decide +kernel
/-- V20: bit 1 of `a` set. -/
theorem test_bfly_second_word : reportOf (out (exec (.bfly 2 2) (on (mk 4 [])))) = some (0x42, 0x24400002) := by decide +kernel
/-- V43's last example. -/
theorem test_stage :
    seqOf (out (exec (.stage 2) (on (mk 4 [])))) = some { phase := .bfy, mac := .none, s := 2, j := 0 } := by decide +kernel
/-- V20: `L = 0` has no stage. -/
theorem test_stage_of_one : reportOf (out (exec (.stage 1) (on (mk 1 [])))) = some (0x42, 0x28200000) := by decide +kernel
/-- V2. -/
theorem test_fft_guard : reportOf (out (exec .fft (on (mk 3 [])))) = some (0x12, 0x40000000) := by decide +kernel
theorem test_fft :
    seqOf (out (exec .fft (on (mk 1 [])))) = some { phase := .rev, mac := .fft, s := 0, j := 0 } := by decide +kernel
/-- V43, step 0. -/
theorem test_ifft :
    seqOf (out (exec .ifft (on (mk 2 [])))) = some { phase := .cnj1, mac := .ifft, s := 0, j := 0 } := by decide +kernel
/-- V20: an illegal word is found before the length guard. -/
theorem test_illegal_first : reportOf (nextOf <| cmdIssue B 0x40000001 (mk 3 [])) = some (3 * 16 + 2, 0x40000001) := by
  decide +kernel

/-! ## Engine steps -/

/-- V23: the patterns are moved untouched. -/
theorem test_bitrev :
    wordsOf 4 (nextOf <| engineStep B
      { mk 4 [c p0 p0, c 0x7FF0000000000001 0xFFF8000000000123, c two two, c p0 p0] with
        seq := { phase := .rev, mac := .none, s := 0, j := 1 } }) =
      [some (c p0 p0), some (c two two), some (c 0x7FF0000000000001 0xFFF8000000000123), some (c p0 p0)] := by
  decide +kernel
/-- V24. -/
theorem test_conj :
    wordsOf 2 (nextOf <| engineStep B
      { mk 2 [c pInf mInf, c cNaN cNaN] with seq := { phase := .cnj1, mac := .none, s := 0, j := 1 } }) =
      [some (c pInf mInf), some (c cNaN 0xFFF8000000000000)] := by decide +kernel
/-- V25. -/
theorem test_scale :
    wordsOf 2 (nextOf <| engineStep B
      { mk 2 [c 1 3, c pInf cNaN] with seq := { phase := .scl, mac := .none, s := 0, j := 0 } }) =
      [some (c p0 2), some (c pInf cNaN)] := by decide +kernel
/-- V1, the butterfly of words 1 and 3 in the second stage, and the end of the command. -/
theorem test_last_butterfly :
    wordsOf 4 (nextOf <| engineStep B
      { mk 4 [c ten p0, c m2 p0, c m2 p0, c m2 p0] with seq := { phase := .bfy, mac := .fft, s := 2, j := 1 } }) =
      [some (c ten p0), some (c m2 two), some (c m2 p0), some (c m2 m2)] ∧
    seqOf (nextOf <| engineStep B
      { mk 4 [c ten p0, c m2 p0, c m2 p0, c m2 p0] with seq := { phase := .bfy, mac := .fft, s := 2, j := 1 } }) =
      some Seq.rest := by decide +kernel
/-- V43, steps 5 and 7: the stages of `IFFT` end in the second conjugation, that in the scaling. -/
theorem test_ifft_phases :
    seqOf (nextOf <| engineStep B { mk 2 [] with seq := { phase := .bfy, mac := .ifft, s := 1, j := 0 } }) =
      some { phase := .cnj2, mac := .ifft, s := 0, j := 0 } ∧
    seqOf (nextOf <| engineStep B { mk 2 [] with seq := { phase := .cnj2, mac := .ifft, s := 0, j := 1 } }) =
      some { phase := .scl, mac := .ifft, s := 0, j := 0 } := by decide +kernel

/-! ## The ports -/

/-- V41. -/
theorem test_sample_write :
    (sampleWrite B 3 0xC0000000000000003FF0000000000000 (mk 4 [])).word 3 = some (c one m2) := by decide +kernel
theorem test_sample_read :
    (sampleRead B 0 (mk 4 [c one m2])).replies = [.sample 0xC0000000000000003FF0000000000000] := by decide +kernel
/-- R32, R33 with `WS = 16`: `re` in the low 16 bits. -/
theorem test_narrow_port :
    (sampleWrite (build narrow) 3 0xBBBBAAAA Fbu.reset).word 3 = some { re := 0xAAAA, im := 0xBBBB } ∧
    (sampleRead (build narrow) 3 (sampleWrite (build narrow) 3 0xBBBBAAAA Fbu.reset)).replies =
      [.sample 0xBBBBAAAA] ∧
    regValue (build narrow) Fbu.reset 0 = 0x00000103 := by decide +kernel
/-- V42. -/
theorem test_reg_read :
    [regValue (deep 20) (mk 0 []) 0, regValue (deep 2) (mk 0 []) 0, regValue B (mk 1024 []) 2,
      regValue B { mk 4 [] with seq := { phase := .bfy, mac := .fft, s := 2, j := 1 } } 1] =
      [0x00010115, 0x00010103, 0x00000400, 0x00000001] := by decide +kernel
/-- V44: a running command is stopped, `NLEN` is lost. -/
theorem test_reset :
    nextOf (transact B .reset { mk 8 [c one one] with seq := { phase := .bfy, mac := .fft, s := 2, j := 1 } }) =
      some Fbu.reset := by decide +kernel
/-- V44: the command after reset. -/
theorem test_first_command :
    reportOf (out (step (State.reset.withFetchWord 32 0x40000000))) = some (0x12, 0x40000000) := by decide +kernel
/-- P4: while the engine runs, `SampleRead` is held and `RegRead` is not. -/
theorem test_hold :
    (out (step (on { mk 2 [] with
      seq := { phase := .rev, mac := .none, s := 0, j := 0 }
      pending := [{ wait := 0, txn := .sampleRead 1 }] }))).map (fun t => (t.seq.j, t.replies)) = some (1, []) ∧
    (out (step (on { mk 2 [] with
      seq := { phase := .rev, mac := .none, s := 0, j := 0 }
      pending := [{ wait := 0, txn := .regRead 1 }] }))).map (fun t => (t.seq.j, t.replies)) =
        some (0, [.reg 1]) := by decide +kernel

/-! ## The textual command language, from `95_test_vectors.md` P1, P5 and `30_encoding.md` R57 -/

theorem test_assemble :
    [Asm.assemble Config.default 0 ['b', 'f', 'l', 'y', ' ', '4', ',', ' ', '0', 'x', '9'],
      Asm.assemble Config.default 0 ['s', 'e', 't', 'l', 'o', 'g', '2', ' ', '2', '1'],
      Asm.assemble Config.default 0 ['r', 'd', 'r', 'e', 'g', ' ', '3'],
      Asm.assemble Config.default 0 ['w', 'r', 'i', 't', 'e', ' ', '1', ',', ' ', '-', '1', ',', ' ', '0', '.', '5']] =
    [some [.cmdIssue 0x24800009], some [.cmdIssue 0x04200000], some [.regRead 3],
      some [.sampleWrite 1 0x3FE0000000000000BFF0000000000000]] := by decide +kernel

/-- Log entries 24 and 25: the last index of the port and the first beyond it; blanks at the ends and inside. -/
theorem test_assemble_choices :
    [Asm.assemble Config.default 0 ['r', 'e', 'a', 'd', ' ', '1', '0', '2', '3'],
      Asm.assemble Config.default 0 ['r', 'e', 'a', 'd', ' ', '1', '0', '2', '4'],
      Asm.assemble Config.default 0 [' ', 'f', 'f', 't', ' '],
      Asm.assemble Config.default 0 ['s', 'e', 't', 'n', ' ', '1', ' ', '2']] =
    [some [.sampleRead 1023], none, some [.cmdIssue 0x40000000], none] := by decide +kernel

theorem test_parts :
    Asm.expansion 2 (.ifftParts : Asm.Line Scalar) = [.conj, .bitrev, .stage 1, .stage 2, .conj, .scale] := by decide +kernel

/-! ## Witnesses: for every statement with hypotheses, a state and operands that meet them, at the ends of their ranges -/

/-- The build of a record of 16-bit scalars given as an argument: negation is the identity, and the ROM rounds every
number to 0. -/
def trivialBuild : Build (BitVec 16) (BitVec (16 + 16)) :=
  recordBuild
    (NumRecord.ofBits 16
      { fadd := fun x _ => x, fsub := fun x _ => x, fmul := fun x _ => x, fneg := id, fdivN := fun x _ => x })
    (not_isB64_of_fneg fun _ => rfl) 2 (fun _ => { re := 0#16, im := 0#16 }) ⟨fun _ => 0#16, fun _ _ => rfl⟩
    (fun _ => { re := 0#16, im := 0#16 })

/-- A state of the FBU while a command runs. -/
def running (q : Seq) (n : Nat) (xs : List CWord) : F := { mk n xs with seq := q }

/-- An idle FBU with the first request of the host. -/
def asked (n : Nat) (t : Transaction (BitVec 128)) (s : F) : F := { s with pending := [{ wait := n, txn := t }] }

/-- An FBU with an error pending. -/
def broken (n : Nat) : F := (mk n []).raise .invalidLength 0x40000000

theorem zero_is_no_power : ¬ ∃ l, 0 = 2 ^ l := by
  rintro ⟨l, h⟩
  exact absurd h (Nat.two_pow_pos l).ne

theorem three_is_no_power : ¬ ∃ l, 3 = 2 ^ l := by
  rintro ⟨l, h⟩
  rcases l with _ | _ | l
  · omega
  · omega
  · rw [Nat.pow_succ, Nat.pow_succ] at h; omega

theorem witness_DecodeEncodeRoundTrip :
    [Instr.nop, .setn 4194303, .clrerr, .bitrev, .bfly 31 2097151, .bfly 0 0, .stage 31, .conj, .scale, .fft,
      .ifft].all Instr.wellFormed = true := by decide

theorem witness_EncodeGivesTheDecodedWord :
    decode 0x2BE00000 = .ok (.stage 31) ∧ decode 0x27FFFFFF = .ok (.bfly 31 2097151) := by decide +kernel

theorem witness_DecodingSelectsTheMatchingRow :
    decode 0x043FFFFF = .ok (.setn 4194303) ∧
    opcodeRows[1]? = some { pattern := 0x04000000, mask := 0xFFC00000 } ∧
    OpcodeRow.selects { pattern := 0x04000000, mask := 0xFFC00000 } 0x043FFFFF = true ∧
    opcodeRows[9]? = some { pattern := 0x44000000, mask := 0xFFFFFFFF } ∧
    OpcodeRow.selects { pattern := 0x44000000, mask := 0xFFFFFFFF } 0x44000000 = true := by decide +kernel

theorem witness_NopDoesNothing :
    bits 0x00000000 31 26 = 0 ∧ bits 0x00000001 31 26 = 0 ∧ bits 0x03FFFFFF 31 26 = 0 ∧
      (0x00000001 : Word) ≠ 0 ∧ Ready (mk 0 []) := by decide +kernel

theorem witness_SetnSetsTheLength :
    Ready (mk 8 []) ∧ 0 ≤ B.nmax ∧ 1024 ≤ B.nmax ∧ B.nmax < 1025 ∧
      4194303 < 2 ^ 22 ∧ bits 0x04400000 31 26 = 1 ∧ bits 0x04400000 25 22 ≠ 0 := by decide +kernel

/-- The largest length of the largest FBU fits `NLEN`. -/
theorem witness_SetnSetsTheLength_deepest :
    Ready (mk 8 []) ∧ 2097152 ≤ (deep 20).nmax := by decide +kernel

theorem witness_ClrerrClearsTheError :
    (broken 3).busy = false ∧ (broken 3).err = true ∧
    (mk 3 []).busy = false ∧ ErrorOk (mk 3 []) ∧ (mk 3 []).err = false ∧
    bits 0x08000001 31 26 = 2 ∧ (0x08000001 : Word) ≠ 0x08000000 := by decide +kernel

theorem witness_ErrorsArePrecise :
    (mk 3 []).err = false ∧
    nextOf (cmdIssue B 0x40000000 (mk 3 [])) = some (broken 3) ∧ (broken 3).err = true := by decide +kernel

theorem witness_CommandsAreDroppedWhileErr :
    (broken 3).busy = false ∧ (broken 3).err = true ∧ (0x08000001 : Word) ≠ 0x08000000 ∧
      Instr.setn 8 ≠ .clrerr := by decide +kernel

/-- One state for each line of the statement. -/
theorem witness_ChecksApplyInOrder :
    (running { phase := .rev, mac := .none, s := 0, j := 0 } 2 []).busy = true ∧
    ((broken 3).busy = false ∧ (broken 3).err = true) ∧
    (Ready (mk 3 []) ∧ decode 0x40000001 = .error .nonzeroZeroField) ∧
    (decode 0x04000401 = .ok (.setn 1025) ∧ B.nmax < 1025) ∧
    (decode 0x40000000 = .ok .fft ∧ isDatapath .fft = true ∧ (mk 3 []).len = 3) ∧
    (Ready (mk 4 []) ∧ HasLength B (mk 4 []) 2 ∧ decode 0x28000000 = .ok (.stage 0) ∧
      decode 0x28600000 = .ok (.stage 3) ∧ decode 0x24000000 = .ok (.bfly 0 0) ∧
      decode 0x24200004 = .ok (.bfly 1 4) ∧ 2 ^ 2 ≤ 4 ∧
      decode 0x24400002 = .ok (.bfly 2 2) ∧ Nat.testBit 2 (2 - 1) = true) ∧
    (decode 0x24400001 = .ok (.bfly 2 1) ∧ 1 < 2 ^ 2 ∧ Nat.testBit 1 (2 - 1) = false) := by decide +kernel

theorem witness_ChecksApplyInOrder_lengths : ¬ ∃ l, (mk 3 []).len = 2 ^ l := three_is_no_power

theorem witness_LengthGuardRejects :
    (Ready (mk 3 []) ∧ isDatapath .ifft = true ∧ ¬ ∃ l, (mk 3 []).len = 2 ^ l) ∧
    (Ready (mk 0 []) ∧ isDatapath (.bfly 0 0) = true ∧ ¬ ∃ l, (mk 0 []).len = 2 ^ l) :=
  ⟨⟨by decide, rfl, three_is_no_power⟩, ⟨by decide, rfl, zero_is_no_power⟩⟩

/-- Stages 0 and `L + 1`, an `a` of `N`, an `a` with bit `s − 1` set; and `N = 1`. -/
theorem witness_BadOperandsAreReported :
    Ready (mk 4 []) ∧ HasLength B (mk 4 []) 2 ∧ 0 < 1 ∧ 2 < 3 ∧ 1 ≤ 2 ∧ 2 ^ 2 ≤ 4 ∧ Nat.testBit 2 (2 - 1) = true ∧
    Ready (mk 1 []) ∧ HasLength B (mk 1 []) 0 := by decide +kernel

theorem witness_MultiStepCommandsLoadSeq :
    Ready (mk 4 []) ∧ HasLength B (mk 4 []) 2 ∧ 1 ≤ 1 ∧ 2 ≤ 2 ∧
    Ready (mk 1 []) ∧ HasLength B (mk 1 []) 0 ∧ Ready (mk 1024 []) ∧ HasLength B (mk 1024 []) 10 ∧
    (out (exec (.setn 8) (on (mk 4 [])))).isSome = true ∧
    (out (exec (.bfly 2 1) (on (mk 4 [])))).isSome = true ∧
    (out (exec (.stage 3) (on (mk 4 [])))).map Fbu.err = some true := by decide +kernel

/-- The first and the last pair of the longest stage. -/
theorem witness_BflyCombinesOnePair :
    Ready (mk 1024 []) ∧ HasLength B (mk 1024 []) 10 ∧ 1 ≤ 10 ∧ 10 ≤ 10 ∧ 511 < 2 ^ 10 ∧
      Nat.testBit 511 (10 - 1) = false ∧ Nat.testBit 0 (1 - 1) = false := by decide +kernel

theorem witness_BitrevPermutesTheFrame :
    Ready (mk 1 []) ∧ HasLength B (mk 1 []) 0 ∧ Ready (mk 1024 []) ∧ HasLength B (mk 1024 []) 10 ∧
      brev 10 1023 = 1023 ∧ brev 10 1 ≠ 1 := by decide +kernel

theorem witness_ConjConjugatesTheFrame :
    Ready (mk 1 []) ∧ HasLength B (mk 1 []) 0 ∧ Ready (mk 1024 []) ∧ HasLength B (mk 1024 []) 10 := by decide +kernel

theorem witness_ScaleDividesTheFrame :
    Ready (mk 1 []) ∧ HasLength B (mk 1 []) 0 ∧ Ready (mk 1024 []) ∧ HasLength B (mk 1024 []) 10 := by decide +kernel

theorem witness_StageCombinesEveryBlock :
    Ready (mk 1024 []) ∧ HasLength B (mk 1024 []) 10 ∧ 1 ≤ 10 ∧ 10 ≤ 10 ∧ 0 < 2 ^ (10 - 10) ∧ 511 < 2 ^ (10 - 1) ∧
      511 < 2 ^ (10 - 1) ∧ 0 < 2 ^ (1 - 1) := by decide +kernel

/-- `N = 1`, and `N = NMAX` in the smallest FBU. -/
theorem witness_FftComputesTheRecursiveTransform :
    (Ready (mk 1 [c one p0]) ∧ HasLength B (mk 1 [c one p0]) 0 ∧ B.draws = false ∧
      Holds (mk 1 [c one p0]) 0 fun _ => c one p0) ∧
    (Ready (mk 2 [c one p0, c one p0]) ∧ HasLength B (mk 2 [c one p0, c one p0]) 1 ∧
      (deep 0).draws = false ∧
      Holds (mk 2 [c one p0, c one p0]) 1 fun _ => c one p0) := by decide +kernel

theorem witness_IfftComputesTheInverseTransform :
    (Ready (mk 1 [c one p0]) ∧ HasLength B (mk 1 [c one p0]) 0 ∧ B.draws = false ∧
      Holds (mk 1 [c one p0]) 0 fun _ => c one p0) ∧
    (Ready (mk 2 [c one p0, c one p0]) ∧ HasLength B (mk 2 [c one p0, c one p0]) 1 ∧
      (deep 0).draws = false ∧
      Holds (mk 2 [c one p0, c one p0]) 1 fun _ => c one p0) := by decide +kernel

/-- A state whose command completes, and one that no run reaches, where the command level stops. -/
theorem witness_MicroStepsAgreeWithCommandLevel :
    (mk 2 []).seq = Seq.rest ∧ (nextOf (commandLevel B .ifft (mk 2 []))).isSome = true ∧
    (mk 4 []).seq = Seq.rest ∧ commandLevel (deep 0) .fft (mk 4 []) = .fault .frameBeyondMemory :=
  ⟨rfl, by decide +kernel, rfl, rfl⟩

theorem witness_CommandsTakeExactlyTheirSteps :
    (mk 2 []).busy = false ∧
    out (exec .ifft (on (mk 2 []))) = some (running { phase := .cnj1, mac := .ifft, s := 0, j := 0 } 2 []) ∧
    (running { phase := .cnj1, mac := .ifft, s := 0, j := 0 } 2 []).busy = true ∧ 8 < stepCount .ifft 1 := by
  decide +kernel

theorem witness_PartsEqualTheWholeTransforms :
    Ready (mk 1 []) ∧ HasLength B (mk 1 []) 0 ∧ Ready (mk 1024 []) ∧ HasLength B (mk 1024 []) 10 := by decide +kernel

theorem witness_PermutationAndConjugationUndoThemselves :
    Ready (mk 2 [c one two, c one two]) ∧ HasLength B (mk 2 [c one two, c one two]) 1 ∧
      Holds (mk 2 [c one two, c one two]) 1 (fun _ => c one two) := by decide +kernel

/-- A step of each phase: the words 1 and 2 of four are swapped, word 0 stays. -/
theorem witness_EngineStepDoesOneOperation :
    (nextOf (engineStep B (running { phase := .rev, mac := .none, s := 0, j := 1 } 4 []))).isSome = true ∧
    1 < brev (log2 4) 1 ∧ ¬ 0 < brev (log2 4) 0 ∧
    (nextOf (engineStep B (running { phase := .rev, mac := .none, s := 0, j := 0 } 4 []))).isSome = true ∧
    (nextOf (engineStep B (running { phase := .bfy, mac := .fft, s := 2, j := 1 } 4 []))).isSome = true ∧
    (nextOf (engineStep B (running { phase := .cnj1, mac := .ifft, s := 0, j := 3 } 4 []))).isSome = true ∧
    (nextOf (engineStep B (running { phase := .cnj2, mac := .ifft, s := 0, j := 0 } 4 []))).isSome = true ∧
    (nextOf (engineStep B (running { phase := .scl, mac := .none, s := 0, j := 3 } 4 []))).isSome = true := by
  decide +kernel

/-- A step inside a phase, and the last step of each phase of each command, with `L = 0` and `L ≥ 1` apart. -/
theorem witness_PhasesFollowTheTable :
    ([({ phase := .bfy, mac := .fft, s := 1, j := 0 }, 4), ({ phase := .scl, mac := .none, s := 0, j := 3 }, 4),
      ({ phase := .rev, mac := .fft, s := 0, j := 1 }, 2), ({ phase := .rev, mac := .fft, s := 0, j := 0 }, 1),
      ({ phase := .bfy, mac := .fft, s := 1, j := 1 }, 4), ({ phase := .bfy, mac := .fft, s := 2, j := 1 }, 4),
      ({ phase := .cnj1, mac := .ifft, s := 0, j := 0 }, 1), ({ phase := .rev, mac := .ifft, s := 0, j := 1 }, 2),
      ({ phase := .rev, mac := .ifft, s := 0, j := 0 }, 1), ({ phase := .bfy, mac := .ifft, s := 1, j := 1 }, 4),
      ({ phase := .bfy, mac := .ifft, s := 1, j := 0 }, 2), ({ phase := .cnj2, mac := .ifft, s := 0, j := 1 }, 2),
      ({ phase := .scl, mac := .ifft, s := 0, j := 1 }, 2)] : List (Seq × Nat)).all
        (fun p => (nextOf (engineStep B (running p.1 p.2 []))).isSome) = true := by decide +kernel

/-- Two states that differ in an inactive word, in the error report's word and in what the host has read. -/
theorem witness_ResultsDependOnTheFrameAlone :
    AgreeOnFrame (running { phase := .cnj1, mac := .none, s := 0, j := 0 } 2 [c one one, c two two])
      { running { phase := .cnj1, mac := .none, s := 0, j := 0 } 2 [c one one, c two two, c p0 p0] with
        errcmd := 1, replies := [.reg 0] } ∧
    (nextOf (engineStep B
      (running { phase := .cnj1, mac := .none, s := 0, j := 0 } 2 [c one one, c two two]))).isSome = true ∧
    AgreeOnFrame (mk 2 [c one one, c two two]) (mk 2 [c one one, c two two, c p0 p0]) ∧
    Ready (mk 2 [c one one, c two two]) ∧ Ready (mk 2 [c one one, c two two, c p0 p0]) ∧
    (out (exec (.bfly 1 0) (on (mk 2 [c one one, c two two])))).isSome = true := by
  unfold AgreeOnFrame
  decide +kernel

theorem witness_StepRunsTheDecodedCommand :
    (asked 0 (.cmdIssue 0x24400001) (mk 4 [])).busy = false ∧
    (asked 0 (.cmdIssue 0x24400001) (mk 4 [])).pending = { wait := 0, txn := .cmdIssue 0x24400001 } :: [] ∧
    (asked 7 (.cmdIssue 0x0C000000) (mk 4 [])).pending = { wait := 7, txn := .cmdIssue 0x0C000000 } :: [] ∧
    decode 0x24400001 = .ok (.bfly 2 1) ∧ decode 0x0C000000 = .error .unassignedOpcode := by decide +kernel

theorem witness_TransactionsAreHeldWhileBusy :
    (asked 0 (.sampleRead 0) (running { phase := .rev, mac := .none, s := 0, j := 0 } 2 [])).pending =
      { wait := 0, txn := .sampleRead 0 } :: [] ∧
    (asked 0 (.sampleRead 0) (running { phase := .rev, mac := .none, s := 0, j := 0 } 2 [])).busy = true ∧
    heldWhileBusy (V := BitVec 128) (.sampleRead 0) = true ∧ heldWhileBusy (V := BitVec 128) .reset = false ∧
    heldWhileBusy (V := BitVec 128) (.regRead 3) = false ∧
    (asked 3 (.sampleRead 0) (mk 2 [])).busy = false := by decide +kernel

/-- The ends of the memory, by default, with 16-bit scalars, and over a record given as an argument. -/
theorem witness_SampleReadReturnsTheWrittenBits :
    0 < B.nmax ∧ 1023 < B.nmax ∧ 7 < (build narrow).nmax ∧
      7 < trivialBuild.nmax := by decide +kernel

theorem witness_UnwrittenWordsCanBeRead :
    1023 < B.nmax ∧ (mk 4 []).word 1023 = none := by decide +kernel

/-- A busy FBU and one with an error pending. -/
theorem witness_ResetWorksInEveryState :
    (asked 0 .reset (running { phase := .bfy, mac := .fft, s := 2, j := 1 } 8 [])).pending =
      { wait := 0, txn := .reset } :: [] ∧
    (asked 0 .reset (broken 3)).pending = { wait := 0, txn := .reset } :: [] := by decide +kernel

/-- A step of the engine and one of the host from states that meet the invariant. -/
theorem witness_EveryStepKeepsTheInvariant :
    FbuInv B (running { phase := .bfy, mac := .fft, s := 2, j := 1 } 4 [c one one]) ∧
    (out (step (on (running { phase := .bfy, mac := .fft, s := 2, j := 1 } 4 [c one one])))).isSome = true ∧
    FbuInv B (asked 0 (.cmdIssue 0x40000000) (mk 4 [c one one])) ∧
    (out (step (on (asked 0 (.cmdIssue 0x40000000) (mk 4 [c one one]))))).isSome = true ∧
    FbuInv B (broken 3) := by decide +kernel

theorem witness_NoStepStops :
    FbuInv B (running { phase := .scl, mac := .ifft, s := 0, j := 1023 } 1024 []) ∧ FbuInv B (broken 0) := by decide +kernel

theorem witness_BusyEngineBecomesIdle :
    FbuInv B (running { phase := .cnj1, mac := .ifft, s := 0, j := 0 } 1024 []) ∧
    (running { phase := .cnj1, mac := .ifft, s := 0, j := 0 } 1024 []).busy = true := by decide +kernel

theorem witness_ConfigurationNeverChanges : (out (step (on (asked 0 .reset (broken 3))))).isSome = true := by
  decide +kernel

/-- `SETN` and `Reset` both change `NLEN`. -/
theorem witness_OnlySetnAndResetWriteNlen :
    (out (step (on (asked 0 (.cmdIssue 0x04000008) (mk 4 []))))).map Fbu.nlen = some 8 ∧
    (out (step (on (asked 0 .reset (mk 4 []))))).map Fbu.nlen = some 0 ∧ (mk 4 []).nlen = 4 := by decide +kernel

/-- A step of each of the three kinds. -/
theorem witness_ErrorReportHasThreeWriters :
    (out (step (on (asked 0 (.cmdIssue 0x40000000) (mk 4 []))))).map Fbu.err = some false ∧
    (out (step (on (asked 0 (.cmdIssue 0x40000000) (mk 3 []))))).map Fbu.err = some true ∧
    (out (step (on (asked 0 (.cmdIssue 0x08000000) (broken 3))))).map Fbu.err = some false := by decide +kernel

/-- A command carried out; an engine step while a `SampleWrite` is held; an engine step before a `Reset` is due. -/
theorem witness_InactiveWordsAreKept :
    (out (step (on (asked 0 (.cmdIssue 0x24200000) (mk 2 [c one p0, c two p0, c two two]))))).isSome = true ∧
    (out (step (on (asked 0 (.sampleWrite 1 7) (running { phase := .rev, mac := .none, s := 0, j := 0 } 2 []))))).isSome
      = true ∧
    (out (step (on (asked 3 .reset (running { phase := .rev, mac := .none, s := 0, j := 0 } 2 []))))).isSome = true ∧
    (running { phase := .rev, mac := .none, s := 0, j := 0 } 2 []).busy = true ∧
    mustWait { wait := 0, txn := (.sampleWrite 1 7 : Transaction (BitVec 128)) } = true ∧
    mustWait { wait := 3, txn := (.reset : Transaction (BitVec 128)) } = true ∧
    (mk 2 [c one p0, c two p0, c two two]).len ≤ 2 := by decide +kernel

theorem witness_InactiveWordsAreKept_command :
    (Transaction.cmdIssue 0x24200000 : Transaction (BitVec 128)) ≠ .reset ∧
    ∀ i v, (Transaction.cmdIssue 0x24200000 : Transaction (BitVec 128)) ≠ .sampleWrite i v :=
  ⟨(nomatch ·), fun _ _ => (nomatch ·)⟩

theorem witness_BusyHostSeesNoError :
    FbuInv B (running { phase := .rev, mac := .none, s := 0, j := 0 } 1 []) ∧
    (running { phase := .rev, mac := .none, s := 0, j := 0 } 1 []).busy = true := by decide +kernel

/-- A tie, and the magnitude from which the result is the infinity. -/
theorem witness_RoundingIsNearestEven :
    Binary64.roundMag 3 1 = 2 ∧ Binary64.roundMag 3 1 < Binary64.infLow ∧ 1 < Binary64.infLow ∧
    Binary64.roundMag (2 ^ 2098 - 2 ^ 2044) 0 = Binary64.infLow ∧
    Binary64.roundMag (2 ^ 2098 - 2 ^ 2044 - 1) 0 = Binary64.infLow - 1 := by decide +kernel

/-- The largest finite operand, a zero of each sign, and a tie. -/
theorem witness_ArithmeticIsCorrectlyRounded :
    Binary64.isFinite biggest = true ∧ Binary64.isFinite m0 = true ∧ Binary64.isFinite p0 = true ∧
    Binary64.isFinite one = true ∧ Binary64.isFinite 0x3CA0000000000000 = true := by decide +kernel

/-- Each way to a NaN. -/
theorem witness_NaNResultsFollowThePolicy :
    Binary64.isNaN cNaN = true ∧ Binary64.isNaN (Binary64.fadd cNaN pInf mInf) = true ∧
    Binary64.isNaN (Binary64.fsub cNaN pInf pInf) = true ∧ Binary64.isNaN (Binary64.fmul cNaN p0 pInf) = true ∧
    Binary64.isNaN (Binary64.fdivN cNaN 0x7FF0000000000001 3) = true := by decide +kernel

theorem witness_ExactScalarOperations :
    Binary64.isFinite m0 = true ∧ Binary64.isNaN pInf = false ∧ Binary64.isNaN 1 = false := by decide +kernel

theorem witness_InverseOfZerosIsZeros :
    10 ≤ B.logNMax ∧ Binary64.isZero p0 = true ∧
      Binary64.isZero m0 = true := by decide +kernel

theorem witness_BitReversalLaws : 7 < 2 ^ 3 ∧ 2 < 3 := by decide

theorem witness_ButterflyPairsPartitionTheFrame :
    10 ≤ B.logNMax ∧ 1 ≤ 10 ∧ 511 < 2 ^ 10 / 2 ∧ 0 < 2 ^ 10 / 2 ∧ 511 < 2 ^ 10 ∧ 1023 < 2 ^ 10 ∧
      Nat.testBit 511 (10 - 1) = false ∧ Nat.testBit 1023 (10 - 1) = true := by decide +kernel

/-- The smallest and the largest FBU, and the smallest ones that have the later entries; a format of 16-bit scalars. -/
theorem witness_ExactTwiddleEntries :
    2 ≤ (deep 1).logNMax ∧ 3 ≤ (deep 2).logNMax ∧ 3 ≤ (deep 20).logNMax ∧ narrow.numFmt = .other 16 ∧
      2 ≤ (build narrow).logNMax ∧ 3 ≤ (build narrow).logNMax := by decide +kernel

theorem witness_TwiddlesDoNotDependOnTheDepth :
    1 ≤ 11 ∧ 11 ≤ (10 : Fin 21).val + 1 ∧ 11 ≤ (20 : Fin 21).val + 1 ∧ 1023 < 2 ^ (11 - 1) := by decide +kernel

/-- An entry of each side of the quarter turn, in the printed table and beyond it. -/
theorem witness_TwiddleTableSymmetries :
    0 < 1 ∧ 255 < B.nmax / 4 ∧ 511 < B.nmax / 2 ∧ B.nmax / 4 < 511 ∧
    524287 < (deep 20).nmax / 4 ∧ 1048575 < (deep 20).nmax / 2 ∧ (deep 20).nmax / 4 < 1048575 := by decide +kernel

theorem witness_ScheduleComputesTheRecursion : 0 < 2 ^ 0 ∧ 7 < 2 ^ 3 := by decide

theorem witness_RecursionIsTheDft : 0 < 2 ^ 0 ∧ 7 < 2 ^ 3 := by decide

/-- An FBU under `NUM_EXACT` with a frame of two real samples. -/
noncomputable def exactFbu : Fbu ℝ (Cx ℝ) :=
  { (Fbu.reset : Fbu ℝ (Cx ℝ)) with nlen := 2, xmem := [(0, { re := 3, im := 0 }), (1, { re := 1, im := 0 })] }

/-- The samples of `exactFbu`. -/
noncomputable def exactFrame (n : Nat) : Cx ℝ := if n = 0 then { re := 3, im := 0 } else { re := 1, im := 0 }

theorem witness_InverseIsTheIdft :
    0 < 2 ^ 0 ∧ 7 < 2 ^ 3 ∧ Ready exactFbu ∧ HasLength (Exact.build 9 fun _ => { re := 0, im := 0 }) exactFbu 1 ∧
      Holds exactFbu 1 exactFrame := by
  refine ⟨by decide, by decide, ⟨rfl, rfl⟩, ⟨rfl, by decide⟩, fun i hi => ?_⟩
  obtain rfl | rfl : i = 0 ∨ i = 1 := by omega
  · simp [Fbu.word, memRead, exactFbu, exactFrame]
  · simp [Fbu.word, memRead, exactFbu, exactFrame]

/-- `exactFbu` is a real frame. -/
theorem witness_ExactTransformLaws_real : ∀ n, n < 2 ^ 1 → (exactFrame n).im = 0 := by
  intro n _
  unfold exactFrame
  split <;> rfl

/-- `z` is the sum of `x` and `y` with the factors 1 and 1. -/
theorem witness_ExactTransformLaws :
    0 < 2 ^ 1 ∧ ∀ n : Nat, n < 2 ^ 1 → Exact.toC { re := 2, im := 0 } =
      1 * Exact.toC { re := 1, im := 0 } + 1 * Exact.toC { re := 1, im := 0 } := by
  refine ⟨by decide, fun n _ => ?_⟩
  apply Complex.ext <;> simp [Exact.toC]
  norm_num

end Sys2Proof.Tests
end

section
/-!
PROOF. Index arithmetic of the engine (`40_numeric_datapath.md` R84 to R86): the addresses of a phase stay in the frame.
-/

namespace Sys2Proof.Machine

/-- `ispow2` and `log2` as R85 means them. -/
theorem eq_two_pow_log2 {n : Nat} (h : ispow2 n = true) : n = 2 ^ log2 n := by
  simp only [ispow2, Bool.and_eq_true, bne_iff_ne, beq_iff_eq] at h
  obtain ⟨l, rfl⟩ := (Nat.and_sub_one_eq_zero_iff_isPowerOfTwo h.1).1 h.2
  rw [log2, Nat.log2_two_pow]

/-- `brev_L` stays below `2^L`, whatever its argument. -/
theorem brev_lt (l i : Nat) : brev l i < 2 ^ l := by
  induction l generalizing i with
  | zero => exact Nat.one_pos
  | succ l ih =>
    have hbit : i % 2 * 2 ^ l ≤ 1 * 2 ^ l := Nat.mul_le_mul_right _ (by omega)
    have hlow := ih (i / 2)
    rw [brev, pow_succ]
    omega

theorem legalStage_iff {l st : Nat} : legalStage l st = true ↔ 1 ≤ st ∧ st ≤ l := by
  simp [legalStage]

/-- The bit `a[s−1]` is the parity of the half-block `a` stands in. -/
theorem legalFirst_iff {n st a : Nat} : legalFirst n st a = true ↔ a < n ∧ a / half st % 2 = 0 := by
  simp [legalFirst, half, Nat.testBit_eq_decide_div_mod_eq]

theorem two_mul_half {st : Nat} (h : 1 ≤ st) : 2 ^ st = 2 * half st := by
  rw [half, ← pow_succ', Nat.sub_add_cancel h]

/-- A frame of length `2^L` is whole blocks of stage `s`, each of two half-blocks. -/
theorem two_pow_eq_blocks {l st : Nat} (h : legalStage l st = true) : 2 ^ l = 2 * (2 ^ (l - st) * half st) := by
  obtain ⟨h1, h2⟩ := legalStage_iff.1 h
  calc 2 ^ l = 2 ^ (l - st) * 2 ^ st := by rw [← pow_add, Nat.sub_add_cancel h2]
    _ = 2 * (2 ^ (l - st) * half st) := by rw [two_mul_half h1]; ring

/-- The second word of a pair is in the frame when the first is a legal one (R110). -/
theorem pairSecond_lt {l st a : Nat} (hs : legalStage l st = true) (ha : legalFirst (2 ^ l) st a = true) :
    pairSecond st a < 2 ^ l := by
  obtain ⟨hlt, heven⟩ := legalFirst_iff.1 ha
  have hh := half_pos st
  have hblocks := two_pow_eq_blocks hs
  generalize 2 ^ (l - st) = blocks at hblocks
  rw [hblocks] at hlt ⊢
  have hq : a / half st < blocks * 2 := Nat.div_lt_of_lt_mul (by linarith)
  have hnext : (a / half st + 2) * half st ≤ blocks * 2 * half st := Nat.mul_le_mul_right _ (by omega)
  have hdiv := Nat.div_add_mod' a (half st)
  have hmod := Nat.mod_lt a hh
  rw [pairSecond]
  linarith

/-- The same for the length as the length guard reads it. -/
theorem pairSecond_lt_of_ispow2 {n st a : Nat} (hpow : ispow2 n = true) (hs : legalStage (log2 n) st = true)
    (ha : legalFirst n st a = true) : pairSecond st a < n := by
  have hn := eq_two_pow_log2 hpow
  exact (pairSecond_lt hs (hn ▸ ha)).trans_eq hn.symm

/-- Every butterfly of a stage starts at a legal first word (R84, R111). -/
theorem legalFirst_pairFirst {l st j : Nat} (hs : legalStage l st = true) (hj : j < 2 ^ l / 2) :
    legalFirst (2 ^ l) st (pairFirst st j) = true := by
  have hh := half_pos st
  have hblocks := two_pow_eq_blocks hs
  have hform : pairFirst st j = j % half st + half st * (2 * (j / half st)) := by
    rw [pairFirst, pairPos, two_mul_half (legalStage_iff.1 hs).1]; ring
  have hmod := Nat.mod_lt j hh
  refine legalFirst_iff.2 ⟨?_, ?_⟩
  · generalize 2 ^ (l - st) = blocks at hblocks
    have hg : j / half st < blocks := Nat.div_lt_of_lt_mul (by rw [mul_comm]; omega)
    have hnext : (j / half st + 1) * half st ≤ blocks * half st := Nat.mul_le_mul_right _ hg
    rw [hform, hblocks]
    linarith
  · rw [hform, Nat.add_mul_div_left _ _ hh, Nat.div_eq_of_lt hmod]
    omega

end Sys2Proof.Machine
end

section
/-!
PROOF. The engine's step (`48_sequencer_microsteps.md` R170 to R176): what it leaves unchanged, and the sequencer it
leaves behind.
-/

namespace Sys2Proof.Machine

variable {S V : Type}

/-! What a step touches. -/

theorem runnable_iff {B : Build S V} {s : Fbu S V} :
    runnable B s = true ↔
      ispow2 s.len = true ∧ s.len ≤ B.nmax ∧ seqInRange s.len (log2 s.len) s.seq = true := by
  simp [runnable, and_assoc]

/-- The counter of a phase of words is the index of a word of the frame. -/
theorem counter_lt {n l : Nat} {q : Seq} (h : seqInRange n l q = true) (hp : q.phase ≠ .bfy) : q.j < n := by
  simp only [seqInRange, phaseLength, if_neg hp, Bool.and_eq_true, decide_eq_true_eq] at h
  exact h.2

/-- In a butterfly phase the stage is one of the transform and the counter is the number of a butterfly. -/
theorem butterfly_inRange {n l : Nat} {q : Seq} (h : seqInRange n l q = true) (hp : q.phase = .bfy) :
    legalStage l q.s = true ∧ q.j < n / 2 := by
  simp only [seqInRange, phaseLength, if_pos hp, Bool.and_eq_true, decide_eq_true_eq] at h
  exact h

/-- A butterfly at a legal first word touches words of the frame only. -/
theorem butterfly_touches_frame {B : Build S V} {s : Fbu S V} {st a : Nat} (hpow : ispow2 s.len = true)
    (hs : legalStage (log2 s.len) st = true) (ha : legalFirst s.len st a = true) :
    Touches (· < s.len) s (butterfly B st a s) := by
  refine (butterfly_touches B st a s).mono fun i hi => ?_
  rcases hi with rfl | rfl
  · exact (legalFirst_iff.1 ha).1
  · exact pairSecond_lt_of_ispow2 hpow hs ha

/-- The work of an engine step touches words of the frame only (`20_memory.md` R38). -/
theorem phaseBody_touches {B : Build S V} {s : Fbu S V} (h : runnable B s = true) :
    Touches (· < s.len) s (phaseBody B (log2 s.len) s.seq s) := by
  obtain ⟨hpow, -, hrange⟩ := runnable_iff.1 h
  have hlen := eq_two_pow_log2 hpow
  unfold phaseBody
  cases hp : s.seq.phase with
  | idle => exact Touches.refl _ _
  | cnj1 | cnj2 =>
    refine (cnjBody_touches B _ s).mono fun i hi => ?_
    exact hi ▸ counter_lt hrange (by simp [hp])
  | scl =>
    refine (sclBody_touches B _ _ s).mono fun i hi => ?_
    exact hi ▸ counter_lt hrange (by simp [hp])
  | rev =>
    refine (revBody_touches B _ _ s).mono fun i hi => ?_
    rcases hi with rfl | rfl
    · exact counter_lt hrange (by simp [hp])
    · exact (brev_lt _ _).trans_eq hlen.symm
  | bfy =>
    obtain ⟨hs, hj⟩ := butterfly_inRange hrange hp
    exact butterfly_touches_frame hpow hs (hlen ▸ legalFirst_pairFirst hs (hlen ▸ hj))

/-- An engine step does its phase's work on the frame and moves `SEQ`. -/
theorem engineStep_touches {B : Build S V} {s t : Fbu S V} (h : engineStep B s = .next t) :
    Touches (· < s.len) s { t with seq := s.seq } := by
  obtain ⟨hr, fin, -, rfl⟩ := engineStep_effect h
  have hbody := phaseBody_touches hr
  exact { hbody with seq := rfl }

/-! The sequencer. -/

/-- `SEQ` is in a combination and range of R171 to R176 while a command runs on a frame of `n` words, `L = log2 n`. -/
def SeqRuns (n l : Nat) (q : Seq) : Prop := seqInRange n l q = true ∧ (phaseEnd l q).isSome = true

/-- Everything that can follow the last step of a phase (R176). -/
theorem phaseEnd_cases {l : Nat} {q fin : Seq} (h : phaseEnd l q = some fin) :
    fin = Seq.rest ∨
      (∃ m st, m ≠ .none ∧ legalStage l st = true ∧ fin = { phase := .bfy, mac := m, s := st, j := 0 }) ∨
      ∃ p, (p = .rev ∨ p = .cnj2 ∨ p = .scl) ∧ fin = { phase := p, mac := .ifft, s := 0, j := 0 } := by
  obtain ⟨p, m, st, j⟩ := q
  cases m with
  | none => cases p <;> simp_all [phaseEnd]
  | fft =>
    cases p <;> simp only [phaseEnd, Option.some.injEq, reduceCtorEq] at h
    all_goals
      subst h
      split
      · exact .inr (.inl ⟨.fft, _, by simp, legalStage_iff.2 (by omega), rfl⟩)
      · exact .inl rfl
  | ifft =>
    cases p <;> simp only [phaseEnd, Option.some.injEq, reduceCtorEq] at h <;> subst h
    case cnj1 | cnj2 => exact .inr (.inr ⟨_, by simp, rfl⟩)
    case scl => exact .inl rfl
    case rev | bfy =>
      split
      · exact .inr (.inl ⟨.ifft, _, by simp, legalStage_iff.2 (by omega), rfl⟩)
      · exact .inr (.inr ⟨_, by simp, rfl⟩)

/-- The first step of a butterfly stage is in range: the frame has at least two words. -/
theorem seqRuns_stage {n l st : Nat} (hn : n = 2 ^ l) (m : Mac) (h : legalStage l st = true) :
    SeqRuns n l { phase := .bfy, mac := m, s := st, j := 0 } := by
  obtain ⟨h1, h2⟩ := legalStage_iff.1 h
  have hlen : 2 ^ 1 ≤ 2 ^ l := Nat.pow_le_pow_right (by omega) (by omega)
  refine ⟨?_, by cases m <;> rfl⟩
  simp only [seqInRange, phaseLength, if_true, h, Bool.true_and, decide_eq_true_eq]
  omega

/-- The first step of a phase of words is in range: the frame has at least one word. -/
theorem seqRuns_words {n l : Nat} {p : Phase} {m : Mac} (hn : n = 2 ^ l) (hp : p ≠ .bfy)
    (h : (phaseEnd l { phase := p, mac := m, s := 0, j := 0 }).isSome = true) :
    SeqRuns n l { phase := p, mac := m, s := 0, j := 0 } :=
  ⟨by simp [seqInRange, phaseLength, hp, hn], h⟩

/-- The acceptance of a multi-step command loads a sequencer that runs (R171). -/
theorem seqRuns_start {n l st : Nat} {p : Phase} {m : Mac} (hn : n = 2 ^ l)
    (which : (p = .rev ∧ m = .none ∧ st = 0) ∨ (p = .bfy ∧ m = .none ∧ legalStage l st = true) ∨
      (p = .cnj1 ∧ m = .none ∧ st = 0) ∨ (p = .scl ∧ m = .none ∧ st = 0) ∨
      (p = .rev ∧ m = .fft ∧ st = 0) ∨ (p = .cnj1 ∧ m = .ifft ∧ st = 0)) :
    SeqRuns n l { phase := p, mac := m, s := st, j := 0 } := by
  rcases which with ⟨rfl, rfl, rfl⟩ | ⟨rfl, rfl, hs⟩ | ⟨rfl, rfl, rfl⟩ | ⟨rfl, rfl, rfl⟩ | ⟨rfl, rfl, rfl⟩ | ⟨rfl, rfl, rfl⟩
  case inr.inl => exact seqRuns_stage hn .none hs
  all_goals exact seqRuns_words hn (by simp) rfl

/-- What follows the last step of a phase is rest or the first step of another phase. -/
theorem phaseEnd_runs {n l : Nat} {q fin : Seq} (hn : n = 2 ^ l) (h : phaseEnd l q = some fin) :
    fin = Seq.rest ∨ SeqRuns n l fin := by
  rcases phaseEnd_cases h with rfl | ⟨m, st, -, hs, rfl⟩ | ⟨p, hp, rfl⟩
  · exact .inl rfl
  · exact .inr (seqRuns_stage hn m hs)
  · rcases hp with rfl | rfl | rfl <;> exact .inr (seqRuns_words hn (by simp) rfl)

/-- Which phase follows does not depend on the counter. -/
theorem phaseEnd_counter (l j : Nat) (q : Seq) : phaseEnd l { q with j := j } = phaseEnd l q := by
  obtain ⟨p, m, st, j'⟩ := q
  cases m <;> cases p <;> rfl

/-- A counter below the phase's length is in range where another one was. -/
theorem seqInRange_counter {n l j : Nat} {q : Seq} (h : seqInRange n l q = true) (hj : j < phaseLength n q) :
    seqInRange n l { q with j := j } = true := by
  simp only [seqInRange, phaseLength, Bool.and_eq_true] at h hj ⊢
  exact ⟨h.1, decide_eq_true hj⟩

/-- One step of a phase leaves `SEQ` at rest or in a combination and range that can occur. -/
theorem advance_runs {n l : Nat} {q fin : Seq} (hn : n = 2 ^ l) (hq : seqInRange n l q = true)
    (h : phaseEnd l q = some fin) : advance n q fin = Seq.rest ∨ SeqRuns n l (advance n q fin) := by
  unfold advance
  split
  · next hj => exact .inr ⟨seqInRange_counter hq hj, by rw [phaseEnd_counter, h]; rfl⟩
  · exact phaseEnd_runs hn h

/-- A running sequencer is not idle. -/
theorem SeqRuns.phase_ne_idle {n l : Nat} {q : Seq} (h : SeqRuns n l q) : q.phase ≠ .idle := by
  intro hp
  have hend : phaseEnd l q = none := by
    obtain ⟨p, m, st, j⟩ := q
    subst hp
    cases m <;> rfl
  simp [SeqRuns, hend] at h

end Sys2Proof.Machine
end

section
/-!
PROOF. The invariant of the machine: it holds after reset and every step keeps it.
-/

namespace Sys2Proof.Machine

variable {S V : Type}

/-! The parts of the invariant. -/

theorem seqOk_of_rest {B : Build S V} {s : Fbu S V} (h : s.seq = Seq.rest) : SeqOk B s := by
  simp [SeqOk, busy_rest s h, h]

theorem seqOk_of_runs {B : Build S V} {s : Fbu S V} {n : Nat} (hn : s.len = n) (hpow : ispow2 n = true)
    (hle : n ≤ B.nmax) (h : SeqRuns n (log2 n) s.seq) : SeqOk B s := by
  subst hn
  have hbusy : s.busy = true := by simp [Fbu.busy, h.phase_ne_idle]
  have hrun : runnable B s = true := runnable_iff.2 ⟨hpow, hle, h.1⟩
  simp [SeqOk, hbusy, hrun, h.2]

theorem seqOk_congr {B : Build S V} {s t : Fbu S V} (hn : t.nlen = s.nlen) (hq : t.seq = s.seq) (h : SeqOk B s) :
    SeqOk B t := by
  simpa only [SeqOk, runnable, busy_congr hq, len_congr hn, hq] using h

theorem errorOk_congr {s t : Fbu S V} (he : t.err = s.err) (hc : t.errcode = s.errcode) (hw : t.errcmd = s.errcmd)
    (h : ErrorOk s) : ErrorOk t := by
  simpa only [ErrorOk, he, hc, hw] using h

theorem errorOk_raise (s : Fbu S V) (e : CmdError) (w : Word) : ErrorOk (s.raise e w) := by
  cases e <;> simp [ErrorOk, errorCode]

theorem errorOk_clear {s : Fbu S V} (he : s.err = false) (hc : s.errcode = 0) (hw : s.errcmd = 0) : ErrorOk s := by
  simp [ErrorOk, he, hc, hw]

/-- `NMAX` fits the field of `NLEN`. -/
theorem nmax_lt (B : Build S V) : B.nmax < 2 ^ 22 :=
  Nat.pow_lt_pow_right (by decide) (by have := B.logNMaxPred.isLt; rw [Build.logNMax]; omega)

/-! What keeps it. -/

/-- The invariant speaks of neither the words' contents nor the model's own fields. -/
theorem FbuInv.congr {B : Build S V} {s t : Fbu S V} (h : FbuInv B s) (hx : memWf B.nmax t.xmem = true)
    (hn : t.nlen = s.nlen) (he : t.err = s.err) (hc : t.errcode = s.errcode) (hw : t.errcmd = s.errcmd)
    (hq : t.seq = s.seq) : FbuInv B t := by
  obtain ⟨-, hlen, herr, hidle, hseq⟩ := h
  refine ⟨hx, ?_, errorOk_congr he hc hw herr, ?_, seqOk_congr hn hq hseq⟩
  · rwa [len_congr hn]
  · rwa [he, busy_congr hq]

/-- Work on words of the memory keeps the invariant. -/
theorem FbuInv.touches {B : Build S V} {P : Nat → Prop} {s t : Fbu S V} (h : FbuInv B s) (ht : Touches P s t)
    (hP : ∀ i, P i → i < B.nmax) : FbuInv B t :=
  h.congr (ht.wf _ hP h.1) ht.nlen ht.err ht.errcode ht.errcmd ht.seq

/-- No error is pending while a command runs (`48_sequencer_microsteps.md` R179). -/
theorem FbuInv.err_of_busy {B : Build S V} {s : Fbu S V} (h : FbuInv B s) (hb : s.busy = true) : s.err = false := by
  obtain ⟨-, -, -, hidle, -⟩ := h
  by_contra he
  simp [hidle (by simpa using he)] at hb

/-- Error entry in an idle FBU keeps the invariant. -/
theorem FbuInv.raise {B : Build S V} {s : Fbu S V} (h : FbuInv B s) (hidle : s.busy = false) (e : CmdError) (w : Word) :
    FbuInv B (s.raise e w) := by
  obtain ⟨hmem, hlen, -, -, hseq⟩ := h
  exact ⟨hmem, hlen, errorOk_raise s e w, fun _ => hidle, hseq⟩

/-- Loading `SEQ` keeps the invariant when no error is pending and the loaded sequencer is in range. -/
theorem FbuInv.started {B : Build S V} {s : Fbu S V} {q : Seq} (h : FbuInv B s) (herr : s.err = false)
    (hseq : SeqOk B { s with seq := q }) : FbuInv B { s with seq := q } := by
  obtain ⟨hmem, hlen, hreport, -, -⟩ := h
  exact ⟨hmem, hlen, hreport, fun he => absurd he (by simp [herr]), hseq⟩

/-- The state `Reset` makes meets the invariant, whatever the model's own fields. -/
theorem fbuInv_reset {B : Build S V} {s : Fbu S V} (hx : s.xmem = []) (hn : s.nlen = 0) (he : s.err = false)
    (hc : s.errcode = 0) (hw : s.errcmd = 0) (hq : s.seq = Seq.rest) : FbuInv B s :=
  ⟨by rw [hx]; rfl, by simp [Fbu.len, hn], errorOk_clear he hc hw, fun _ => busy_rest s hq, seqOk_of_rest hq⟩

/-- Every command keeps the invariant. -/
theorem Effect.inv {B : Build S V} {i : Instr} {s t : Fbu S V} (h : Effect B i s t) (hi : FbuInv B s) : FbuInv B t := by
  cases h with
  | same h => exact h ▸ hi
  | error e ready h => exact h ▸ hi.raise ready.1 e _
  | length n ready le h =>
    subst h
    obtain ⟨hmem, -, hreport, hidle, hseq⟩ := hi
    have hrest : s.seq = Seq.rest := by simpa [SeqOk, ready.1] using hseq
    have hlen : (BitVec.ofNat 22 n).toNat = n := by
      rw [BitVec.toNat_ofNat]; exact Nat.mod_eq_of_lt (le.trans_lt (nmax_lt B))
    exact ⟨hmem, hlen.trans_le le, hreport, hidle, seqOk_of_rest hrest⟩
  | cleared idle h =>
    subst h
    obtain ⟨hmem, hlen, -, -, hseq⟩ := hi
    exact ⟨hmem, hlen, errorOk_clear rfl rfl rfl, fun _ => idle, hseq⟩
  | pair st a ready pow le stage first h =>
    exact h ▸ hi.touches (butterfly_touches_frame pow stage first) fun i hlt => lt_of_lt_of_le hlt le
  | start p m st ready pow le which h =>
    subst h
    exact hi.started ready.2 (seqOk_of_runs rfl pow le (seqRuns_start (eq_two_pow_log2 pow) which))

/-- An engine step of a running command keeps the invariant. -/
theorem engineStep_inv {B : Build S V} {s t : Fbu S V} (hb : s.busy = true) (h : engineStep B s = .next t)
    (hi : FbuInv B s) : FbuInv B t := by
  obtain ⟨hr, fin, hfin, rfl⟩ := engineStep_effect h
  obtain ⟨hpow, hle, hrange⟩ := runnable_iff.1 hr
  have hbody := phaseBody_touches hr
  refine (hi.touches hbody fun i hlt => lt_of_lt_of_le hlt hle).started (hbody.err.trans (hi.err_of_busy hb)) ?_
  rcases advance_runs (eq_two_pow_log2 hpow) hrange hfin with hrest | hruns
  · exact seqOk_of_rest hrest
  · exact seqOk_of_runs (len_congr hbody.nlen) hpow hle hruns

/-- Every transaction of the host keeps the invariant. -/
theorem transact_inv {B : Build S V} {x : Transaction V} {s t : Fbu S V} (h : transact B x s = .next t)
    (hi : FbuInv B s) : FbuInv B t := by
  cases x with
  | cmdIssue w =>
    cases hd : decode w with
    | ok i => exact (execOf_effect ((cmdIssue_legal hd s).symm.trans h)).inv hi
    | error e =>
      have hill : illegal w s = .next t := (cmdIssue_illegal hd s).symm.trans h
      rcases accepted_cases s fun s => .next (s.raise .illegalCmd w) with ⟨-, ha⟩ | ⟨-, -, ha⟩ | ⟨hb, -, ha⟩ <;>
        (rw [illegal, ha] at hill; cases hill)
      · exact hi
      · exact hi
      · exact hi.raise hb _ _
  | regRead r => cases h; exact hi
  | sampleRead i =>
    cases h
    have hload := hi.touches (touches_load B (fun _ => False) s (portIndex B i)) (by simp)
    exact hload
  | sampleWrite i v =>
    cases h
    have hport : portIndex B i < B.nmax := Nat.mod_lt _ (nmax_pos B)
    exact hi.touches (touches_store (· = portIndex B i) s _ _ rfl) fun j hj => hj ▸ hport
  | reset => cases h; exact fbuInv_reset rfl rfl rfl rfl rfl rfl

/-- The next step of an FBU of any build keeps the invariant. -/
theorem nextStep_inv {B : Build S V} {s t : Fbu S V} (h : nextStep B s = .next t) (hi : FbuInv B s) : FbuInv B t := by
  rcases nextStep_cases B s with ⟨-, -, e⟩ | ⟨-, hb, e⟩ | ⟨r, rest, -, hb, -, e⟩ | ⟨r, rest, -, -, e⟩ <;> rw [e] at h
  · cases h; exact hi
  · exact engineStep_inv hb h hi
  · exact engineStep_inv (s := { s with pending := tick s.pending }) hb h hi
  · exact transact_inv (s := { s with pending := rest }) h hi

/-- Settles O38: every step is a host transaction or an engine step, and each keeps `FbuInv`. -/
theorem everyStepKeepsTheInvariant : Obligations.EveryStepKeepsTheInvariant := by
  rintro ⟨c, s⟩ t hi h
  obtain ⟨f, rfl, hf⟩ := step_cases h
  exact nextStep_inv hf hi

/-- Settles O37: the reset state meets each part of the invariant in every build. -/
theorem invariantHoldsAtReset : Obligations.InvariantHoldsAtReset :=
  ⟨fbuInv_reset rfl rfl rfl rfl rfl rfl, fun _ => fbuInv_reset rfl rfl rfl rfl rfl rfl⟩

end Sys2Proof.Machine
end

section
/-!
PROOF. Noninterference (`10_state.md` R22): what an engine step or a `BFLY` leaves in the frame is a function of the
frame, `N`, `SEQ` and the free values.
-/

namespace Sys2Proof.Machine

variable {S V : Type} {B : Build S V} {s s' : Fbu S V}

/-! The operations on two states that agree on the frame. -/

theorem AgreeOnFrame.len_eq (h : AgreeOnFrame s s') : s'.len = s.len := len_congr h.1

theorem AgreeOnFrame.seq_eq (h : AgreeOnFrame s s') : s'.seq = s.seq := h.2.1

/-- A read of a word of the frame gives both the same value. -/
theorem AgreeOnFrame.load {i : Nat} (h : AgreeOnFrame s s') (hi : i < s.len) :
    (s'.load B i).1 = (s.load B i).1 ∧ AgreeOnFrame (s.load B i).2 (s'.load B i).2 := by
  obtain ⟨hn, hq, hf, hw⟩ := h
  cases hword : s.word i with
  | some v =>
    rw [load_written hword, load_written ((hw i hi).trans hword)]
    exact ⟨rfl, hn, hq, hf, hw⟩
  | none =>
    rw [load_unwritten hword, load_unwritten ((hw i hi).trans hword)]
    exact ⟨congrArg B.freeWord hf, hn, hq, congrArg (· + 1) hf, hw⟩

theorem AgreeOnFrame.store (h : AgreeOnFrame s s') (i : Nat) (v : Cx S) : AgreeOnFrame (s.store i v) (s'.store i v) := by
  obtain ⟨hn, hq, hf, hw⟩ := h
  refine ⟨hn, hq, hf, fun j hj => ?_⟩
  rw [word_store, word_store, hw j hj]

theorem AgreeOnFrame.drawn (h : AgreeOnFrame s s') (k : Nat) : AgreeOnFrame (s.drawn B k) (s'.drawn B k) := by
  unfold Fbu.drawn
  split
  · obtain ⟨hn, hq, hf, hw⟩ := h
    exact ⟨hn, hq, congrArg (· + k) hf, hw⟩
  · exact h

theorem AgreeOnFrame.nums (h : AgreeOnFrame s s') : s'.nums B = s.nums B := by
  obtain ⟨-, -, hf, -⟩ := h
  unfold Fbu.nums
  rw [hf]

/-! The elementary operations of the engine. -/

theorem AgreeOnFrame.butterfly {st a : Nat} (h : AgreeOnFrame s s') (ha : a < s.len) (hb : pairSecond st a < s.len) :
    AgreeOnFrame (butterfly B st a s) (butterfly B st a s') := by
  obtain ⟨he, h1⟩ := h.load (B := B) ha
  obtain ⟨ho, h2⟩ := h1.load (B := B) (hb.trans_eq (len_congr (load_nlen B s a)).symm)
  unfold Machine.butterfly
  simp only [he, ho, h2.nums]
  exact ((h2.drawn bfOps).store _ _).store _ _

theorem AgreeOnFrame.revBody {l j : Nat} (h : AgreeOnFrame s s') (hj : j < s.len) (hb : brev l j < s.len) :
    AgreeOnFrame (revBody B l j s) (revBody B l j s') := by
  obtain ⟨hx, h1⟩ := h.load (B := B) hj
  obtain ⟨hy, h2⟩ := h1.load (B := B) (hb.trans_eq (len_congr (load_nlen B s j)).symm)
  unfold Machine.revBody
  split
  · simp only [hx, hy]
    exact (h2.store _ _).store _ _
  · exact h

theorem AgreeOnFrame.cnjBody {j : Nat} (h : AgreeOnFrame s s') (hj : j < s.len) :
    AgreeOnFrame (cnjBody B j s) (cnjBody B j s') := by
  obtain ⟨hx, h1⟩ := h.load (B := B) hj
  unfold Machine.cnjBody
  simp only [hx]
  exact h1.store _ _

theorem AgreeOnFrame.sclBody {l j : Nat} (h : AgreeOnFrame s s') (hj : j < s.len) :
    AgreeOnFrame (sclBody B l j s) (sclBody B l j s') := by
  obtain ⟨hx, h1⟩ := h.load (B := B) hj
  unfold Machine.sclBody
  simp only [hx, h1.nums]
  exact (h1.drawn scaleOps).store _ _

/-- A butterfly at a legal first word reads words of the frame only. -/
theorem AgreeOnFrame.legalButterfly {st a : Nat} (h : AgreeOnFrame s s') (hpow : ispow2 s.len = true)
    (hs : legalStage (log2 s.len) st = true) (ha : legalFirst s.len st a = true) :
    AgreeOnFrame (Machine.butterfly B st a s) (Machine.butterfly B st a s') :=
  h.butterfly (legalFirst_iff.1 ha).1 (pairSecond_lt_of_ispow2 hpow hs ha)

/-- The work of one step of the current phase. -/
theorem AgreeOnFrame.phaseBody (h : AgreeOnFrame s s') (hr : runnable B s = true) :
    AgreeOnFrame (phaseBody B (log2 s.len) s.seq s) (phaseBody B (log2 s.len) s.seq s') := by
  obtain ⟨hpow, -, hrange⟩ := runnable_iff.1 hr
  have hlen := eq_two_pow_log2 hpow
  unfold Machine.phaseBody
  cases hp : s.seq.phase with
  | idle => exact h
  | cnj1 | cnj2 => exact h.cnjBody (counter_lt hrange (by simp [hp]))
  | scl => exact h.sclBody (counter_lt hrange (by simp [hp]))
  | rev => exact h.revBody (counter_lt hrange (by simp [hp])) ((brev_lt _ _).trans_eq hlen.symm)
  | bfy =>
    obtain ⟨hs, hj⟩ := butterfly_inRange hrange hp
    exact h.legalButterfly hpow hs (hlen ▸ legalFirst_pairFirst hs (hlen ▸ hj))

/-! The two parts of the statement. -/

theorem AgreeOnFrame.engineStep {t : Fbu S V} (h : AgreeOnFrame s s') (hs : engineStep B s = .next t) :
    ∃ t', engineStep B s' = .next t' ∧ AgreeOnFrame t t' := by
  obtain ⟨hr, fin, hfin, rfl⟩ := engineStep_effect hs
  have hlen := h.len_eq
  have hseq := h.seq_eq
  have hr' : runnable B s' = true := by rw [runnable, hlen, hseq]; exact hr
  have hfin' : phaseEnd (log2 s'.len) s'.seq = some fin := by rw [hlen, hseq]; exact hfin
  refine ⟨_, engineStep_runs hr' hfin', ?_⟩
  rw [hlen, hseq]
  obtain ⟨hn, -, hf, hw⟩ := h.phaseBody hr
  exact ⟨hn, rfl, hf, hw⟩

/-- `BFLY` in two FBUs that accept commands: the checks read `N` alone, and error entry leaves the frame. -/
theorem AgreeOnFrame.bflyOf {st a : Nat} {t : Fbu S V} (h : AgreeOnFrame s s') (hr : Ready s) (hr' : Ready s')
    (hs : bflyOf B st a s = .next t) : ∃ t', bflyOf B st a s' = .next t' ∧ AgreeOnFrame t t' := by
  unfold Machine.bflyOf guarded at hs ⊢
  rw [accepted_ready hr] at hs
  rw [accepted_ready hr', h.len_eq]
  beta_reduce at hs ⊢
  split_ifs at hs ⊢ with hpow hle hstage hfirst
  · cases hs; exact ⟨_, rfl, h.legalButterfly hpow hstage hfirst⟩
  all_goals cases hs; exact ⟨_, rfl, h⟩

/-- Settles O29: the checks, the reads and the writes of a step stay within the frame. -/
theorem resultsDependOnTheFrameAlone : Obligations.ResultsDependOnTheFrameAlone := by
  refine ⟨fun S V B s s' t h hs => h.engineStep hs, fun c s s' t st a h hr hr' hs => ?_⟩
  rw [exec_mk] at hs
  obtain ⟨f, hf, hft⟩ := lift_eq_next hs
  cases hft
  obtain ⟨t', ht', hagree⟩ := h.bflyOf hr hr' hf
  refine ⟨t', ?_, hagree⟩
  rw [exec_mk]
  exact congrArg (lift c) ht'

end Sys2Proof.Machine
end

section
/-!
PROOF. Who writes `NLEN` and the error report (`10_state.md` R13 to R15).
-/

namespace Sys2Proof.Machine

variable {S V : Type}

/-- The error report of `t` is that of `s`. -/
def SameReport (s t : Fbu S V) : Prop := t.err = s.err ∧ t.errcode = s.errcode ∧ t.errcmd = s.errcmd

theorem SameReport.refl (s : Fbu S V) : SameReport s s := ⟨rfl, rfl, rfl⟩

theorem Touches.sameReport {P : Nat → Prop} {s t : Fbu S V} (h : Touches P s t) : SameReport s t :=
  ⟨h.err, h.errcode, h.errcmd⟩

/-- What a command other than `SETN` and `CLRERR` can do to `NLEN` and the error report: leave them, or enter an
error. -/
def LeavesOrRaises (i : Instr) (s t : Fbu S V) : Prop :=
  t.nlen = s.nlen ∧ SameReport s t ∨ Ready s ∧ ∃ e, t = s.raise e (encode i)

theorem LeavesOrRaises.same (i : Instr) (s : Fbu S V) : LeavesOrRaises i s s := .inl ⟨rfl, .refl s⟩

/-- A command under the length guard does to them what it does once past the guard. -/
theorem guarded_leavesOrRaises {B : Build S V} {i : Instr} {s t : Fbu S V} {run : Nat → Nat → Out S V}
    (h : guarded B i s run = .next t) (hrun : Ready s → run s.len (log2 s.len) = .next t → LeavesOrRaises i s t) :
    LeavesOrRaises i s t := by
  rcases guarded_cases B i s run with ⟨-, e⟩ | ⟨hr, -, e⟩ | ⟨-, -, -, e⟩ | ⟨hr, -, -, e⟩ <;> rw [e] at h
  · cases h; exact .same i s
  · cases h; exact .inr ⟨hr, _, rfl⟩
  · cases h
  · exact hrun hr h

theorem started_leavesOrRaises (i : Instr) {s t : Fbu S V} {p : Phase} {m : Mac} {st : Nat}
    (h : started s p m st = .next t) : LeavesOrRaises i s t := by
  cases h; exact .inl ⟨rfl, rfl, rfl, rfl⟩

theorem guarded_started_leavesOrRaises {B : Build S V} {i : Instr} {s t : Fbu S V} {p : Phase} {m : Mac} {st : Nat}
    (h : guarded B i s (fun _ _ => started s p m st) = .next t) : LeavesOrRaises i s t :=
  guarded_leavesOrRaises h fun _ => started_leavesOrRaises i

theorem failed_leavesOrRaises {i : Instr} {s t : Fbu S V} {e : CmdError} (hr : Ready s)
    (h : failed s e i = .next t) : LeavesOrRaises i s t := by
  cases h; exact .inr ⟨hr, e, rfl⟩

/-- Everything a command can do to `NLEN` and the error report when it answers a next state. -/
theorem execOf_registers {B : Build S V} {i : Instr} {s t : Fbu S V} (h : execOf B i s = .next t) :
    (∃ n, i = .setn n ∧ Ready s ∧ n ≤ B.nmax ∧ t = { s with nlen := BitVec.ofNat 22 n }) ∨
      (i = .clrerr ∧ t = s.clearError) ∨ LeavesOrRaises i s t := by
  cases i with
  | nop =>
    rcases accepted_cases s fun s => .next s with ⟨-, e⟩ | ⟨-, -, e⟩ | ⟨-, -, e⟩ <;>
      (rw [execOf, nopOf, e] at h; cases h; exact .inr (.inr (.same _ s)))
  | setn n =>
    rw [execOf, setnOf] at h
    rcases accepted_cases s fun s => if n ≤ B.nmax then .next { s with nlen := BitVec.ofNat 22 n }
        else failed s .lengthRange (.setn n) with ⟨-, e⟩ | ⟨-, -, e⟩ | ⟨hb, he, e⟩ <;> rw [e] at h
    · cases h; exact .inr (.inr (.same _ s))
    · cases h; exact .inr (.inr (.same _ s))
    · split at h
      · next hn => cases h; exact .inl ⟨n, rfl, ⟨hb, he⟩, hn, rfl⟩
      · exact .inr (.inr (failed_leavesOrRaises ⟨hb, he⟩ h))
  | clrerr =>
    rw [execOf, clrerrOf] at h
    split at h <;> cases h
    · exact .inr (.inr (.same _ s))
    · exact .inr (.inl ⟨rfl, rfl⟩)
  | bitrev | conj | scale | fft | ifft =>
    exact .inr (.inr (guarded_started_leavesOrRaises h))
  | stage st =>
    rw [execOf, stageOf] at h
    refine .inr (.inr (guarded_leavesOrRaises h fun hr hrun => ?_))
    split at hrun
    · exact started_leavesOrRaises _ hrun
    · exact failed_leavesOrRaises hr hrun
  | bfly st a =>
    rw [execOf, bflyOf] at h
    refine .inr (.inr (guarded_leavesOrRaises h fun hr hrun => ?_))
    have hpair := butterfly_touches B st a s
    split_ifs at hrun
    · cases hrun; exact .inl ⟨hpair.nlen, hpair.sameReport⟩
    · exact failed_leavesOrRaises hr hrun
    · exact failed_leavesOrRaises hr hrun

/-- The word of a decoded command is the command's encoding (R54). -/
theorem encode_of_decode {w : Word} {i : Instr} (h : decode w = .ok i) : encode i = w := by
  apply encode_eq_of_toNat
  have hw := w.isLt
  rcases decode_ok_cases h with ⟨ho, hz, rfl⟩ | ⟨ho, hz, rfl⟩ | ⟨ho, hz, rfl⟩ | ⟨ho, hz, rfl⟩ | ⟨ho, rfl⟩ |
      ⟨ho, hz, rfl⟩ | ⟨ho, hz, rfl⟩ | ⟨ho, hz, rfl⟩ | ⟨ho, hz, rfl⟩ | ⟨ho, hz, rfl⟩ <;>
    simp only [bits, opcode, fields] at * <;> omega

/-- Everything a `CmdIssue` can do to `NLEN` and the error report. -/
theorem cmdIssue_registers {B : Build S V} {w : Word} {s t : Fbu S V} (h : cmdIssue B w s = .next t) :
    (t.nlen = s.nlen ∧ SameReport s t) ∨
      (Ready s ∧ ∃ e, t = s.raise e w) ∨
      (∃ n, decode w = .ok (.setn n) ∧ Ready s ∧ n ≤ B.nmax ∧ t = { s with nlen := BitVec.ofNat 22 n }) ∨
      (w = 0x08000000 ∧ t = s.clearError) := by
  cases hd : decode w with
  | error e =>
    rw [cmdIssue_illegal hd, illegal] at h
    rcases accepted_cases s fun s => .next (s.raise .illegalCmd w) with ⟨-, ha⟩ | ⟨-, -, ha⟩ | ⟨hb, he, ha⟩ <;>
      (rw [ha] at h; cases h)
    · exact .inl ⟨rfl, .refl s⟩
    · exact .inl ⟨rfl, .refl s⟩
    · exact .inr (.inl ⟨⟨hb, he⟩, _, rfl⟩)
  | ok i =>
    have hw := encode_of_decode hd
    rw [cmdIssue_legal hd] at h
    rcases execOf_registers h with ⟨n, rfl, hr, hn, ht⟩ | ⟨rfl, ht⟩ | hleft | ⟨hr, e, ht⟩
    · exact .inr (.inr (.inl ⟨n, rfl, hr, hn, ht⟩))
    · exact .inr (.inr (.inr ⟨hw.symm, ht⟩))
    · exact .inl hleft
    · exact .inr (.inl ⟨hr, e, hw ▸ ht⟩)

/-- Everything a transaction can do to `NLEN` and the error report. -/
theorem transact_registers {B : Build S V} {x : Transaction V} {s t : Fbu S V} (h : transact B x s = .next t) :
    (t.nlen = s.nlen ∧ SameReport s t) ∨
      (∃ w e, x = .cmdIssue w ∧ Ready s ∧ t = s.raise e w) ∨
      (∃ w n, x = .cmdIssue w ∧ decode w = .ok (.setn n) ∧ Ready s ∧ n ≤ B.nmax ∧
        t = { s with nlen := BitVec.ofNat 22 n }) ∨
      (x = .cmdIssue 0x08000000 ∧ t = s.clearError) ∨
      (x = .reset ∧ t = s.resetOp) := by
  cases x with
  | cmdIssue w =>
    rcases cmdIssue_registers h with hleft | ⟨hr, e, ht⟩ | ⟨n, hd, hr, hn, ht⟩ | ⟨rfl, ht⟩
    · exact .inl hleft
    · exact .inr (.inl ⟨w, e, rfl, hr, ht⟩)
    · exact .inr (.inr (.inl ⟨w, n, rfl, hd, hr, hn, ht⟩))
    · exact .inr (.inr (.inr (.inl ⟨rfl, ht⟩)))
  | regRead r => cases h; exact .inl ⟨rfl, .refl s⟩
  | sampleRead i =>
    cases h
    exact .inl ⟨load_nlen .., load_err .., load_errcode .., load_errcmd ..⟩
  | sampleWrite i v => cases h; exact .inl ⟨rfl, .refl s⟩
  | reset => cases h; exact .inr (.inr (.inr (.inr ⟨rfl, rfl⟩)))

/-- The engine writes neither `NLEN` nor the error report. -/
theorem engineStep_registers {B : Build S V} {s t : Fbu S V} (h : engineStep B s = .next t) :
    t.nlen = s.nlen ∧ SameReport s t :=
  have ht := engineStep_touches h
  ⟨ht.nlen, ht.sameReport⟩

/-- A step leaves `NLEN` and the error report, or it carries out the host's next transaction. -/
theorem nextStep_registers {B : Build S V} {s t : Fbu S V} (h : nextStep B s = .next t) :
    (t.nlen = s.nlen ∧ SameReport s t) ∨
      ∃ r rest, s.pending = r :: rest ∧ transact B r.txn { s with pending := rest } = .next t := by
  rcases nextStep_cases B s with ⟨-, -, e⟩ | ⟨-, -, e⟩ | ⟨r, rest, -, -, -, e⟩ | ⟨r, rest, hp, -, e⟩ <;> rw [e] at h
  · cases h; exact .inl ⟨rfl, .refl s⟩
  · exact .inl (engineStep_registers h)
  · exact .inl (engineStep_registers (s := { s with pending := tick s.pending }) h)
  · exact .inr ⟨r, rest, hp, h⟩

theorem step_registers {c : Config} {s t : Fbu c.Scalar c.Port} (h : step ⟨c, s⟩ = .next ⟨c, t⟩) :
    (t.nlen = s.nlen ∧ SameReport s t) ∨
      ∃ r rest, s.pending = r :: rest ∧ transact (build c) r.txn { s with pending := rest } = .next t := by
  obtain ⟨f, hft, hf⟩ := step_cases h
  cases hft
  exact nextStep_registers hf

/-- Settles O42: of the transactions only `SETN` and `Reset` write `NLEN`, and the engine leaves it. -/
theorem onlySetnAndResetWriteNlen : Obligations.OnlySetnAndResetWriteNlen := by
  intro c s t h hne
  rcases step_registers h with ⟨hn, -⟩ | ⟨r, rest, hp, ht⟩
  · exact absurd hn hne
  rcases transact_registers ht with ⟨hn, -⟩ | ⟨w, e, -, -, rfl⟩ | ⟨w, n, hx, hd, hr, hn, rfl⟩ | ⟨-, rfl⟩ | ⟨hx, rfl⟩
  · exact absurd hn hne
  · exact absurd rfl hne
  · have hlen := Nat.mod_eq_of_lt (hn.trans_lt (nmax_lt (build c)))
    exact .inl ⟨r, rest, w, n, hp, hx, hd, hr.1, hr.2, hn, (BitVec.toNat_ofNat ..).trans hlen⟩
  · exact absurd rfl hne
  · exact .inr ⟨r, rest, hp, hx, rfl⟩

/-- Settles O43: of the transactions only error entry, `CLRERR` and `Reset` write the report, and the engine leaves it. -/
theorem errorReportHasThreeWriters : Obligations.ErrorReportHasThreeWriters := by
  intro c s t h
  rcases step_registers h with ⟨-, hsame⟩ | ⟨r, rest, hp, ht⟩
  · exact .inl hsame
  rcases transact_registers ht with ⟨-, hsame⟩ | ⟨w, e, hx, hr, ht⟩ | ⟨w, n, -, -, -, -, rfl⟩ | ⟨hx, rfl⟩ | ⟨hx, rfl⟩
  · exact .inl hsame
  · exact .inr (.inl ⟨r, rest, w, e, hp, hx, hr.1, hr.2, ht⟩)
  · exact .inl ⟨rfl, rfl, rfl⟩
  · exact .inr (.inr ⟨r, rest, hp, .inl hx, rfl, rfl, rfl⟩)
  · exact .inr (.inr ⟨r, rest, hp, .inr hx, rfl, rfl, rfl⟩)

end Sys2Proof.Machine
end

section
/-!
PROOF. The register port, bit by bit (`10_state.md` R13 to R18), reset values, and the other facts about one step.
-/

namespace Sys2Proof.Machine

/-- A field of a register: concatenation puts the left part above the right one. -/
theorem toNat_append_mul {m n : Nat} (x : BitVec m) (y : BitVec n) : (x ++ y).toNat = x.toNat * 2 ^ n + y.toNat := by
  rw [BitVec.toNat_append, ← Nat.shiftLeft_add_eq_or_of_lt y.isLt, Nat.shiftLeft_eq]

variable {S V : Type}

/-- `LOGNMAX` fits its five bits of `ID`. -/
theorem logNMax_lt (B : Build S V) : B.logNMax < 2 ^ 5 := by
  have := B.logNMaxPred.isLt
  rw [Build.logNMax]
  omega

/-- `ID` as a number: `LOGNMAX`, `CSVER` from bit 8, `NUMFMT` from bit 16 (R16). -/
theorem idReg_toNat (B : Build S V) : (idReg B).toNat = B.numFmtCode.toNat * 2 ^ 16 + 1 * 2 ^ 8 + B.logNMax := by
  simp only [idReg, toNat_append_mul, BitVec.ofNat_eq_ofNat, BitVec.toNat_ofNat, Config.csver, Nat.mod_eq_of_lt (logNMax_lt B)]
  omega

/-- `STATUS` as a number: `BUSY`, `ERR` from bit 1, `ERRCODE` from bit 4 (R14). -/
theorem statusReg_toNat (s : Fbu S V) :
    (statusReg s).toNat = s.errcode.toNat * 2 ^ 4 + s.err.toNat * 2 + s.busy.toNat := by
  simp only [statusReg, toNat_append_mul, BitVec.ofNat_eq_ofNat, BitVec.toNat_ofNat, BitVec.toNat_ofBool]
  omega

/-- `NLEN` as a number (R13). -/
theorem nlenReg_toNat (s : Fbu S V) : (nlenReg s).toNat = s.nlen.toNat := by
  simp only [nlenReg, toNat_append_mul, BitVec.ofNat_eq_ofNat, BitVec.toNat_ofNat]
  omega

theorem busy_toNat (s : Fbu S V) : s.busy.toNat = if s.seq.phase = .idle then 0 else 1 := by
  unfold Fbu.busy
  cases s.seq.phase <;> rfl

theorem numFmtCode_build (c : Config) : (build c).numFmtCode = if c.numFmt = .b64 then 1 else 0 := by
  obtain ⟨p, f, policy⟩ := c
  cases f <;> rfl

/-! The bits of the four registers. -/

theorem idReg_bits (B : Build S V) :
    bits (idReg B) 4 0 = B.logNMax ∧ bits (idReg B) 7 5 = 0 ∧ bits (idReg B) 15 8 = 1 ∧
      bits (idReg B) 19 16 = B.numFmtCode.toNat ∧ bits (idReg B) 31 20 = 0 := by
  have hl := logNMax_lt B
  have hc := B.numFmtCode.isLt
  simp only [bits, idReg_toNat]
  omega

theorem statusReg_bits (s : Fbu S V) :
    bits (statusReg s) 0 0 = (if s.seq.phase = .idle then 0 else 1) ∧
      bits (statusReg s) 1 1 = (if s.err = true then 1 else 0) ∧ bits (statusReg s) 3 2 = 0 ∧
      bits (statusReg s) 7 4 = s.errcode.toNat ∧ bits (statusReg s) 31 8 = 0 := by
  have hc := s.errcode.isLt
  have hb := s.busy.toNat_lt
  have he : s.err.toNat = if s.err = true then 1 else 0 := by cases s.err <;> rfl
  have he' := s.err.toNat_lt
  rw [← busy_toNat, ← he]
  simp only [bits, statusReg_toNat]
  omega

theorem nlenReg_bits (s : Fbu S V) : bits (nlenReg s) 21 0 = s.nlen.toNat ∧ bits (nlenReg s) 31 22 = 0 := by
  have hn := s.nlen.isLt
  simp only [bits, nlenReg_toNat]
  omega

/-- Settles O32: each register as a number, its fields read off at their bits. -/
theorem regReadReturnsTheRegisters : Obligations.RegReadReturnsTheRegisters :=
  ⟨fun _ _ B s => ⟨fun _ => rfl, idReg_bits B, statusReg_bits s, nlenReg_bits s, rfl⟩, numFmtCode_build⟩

/-- The sample port reaches every word of the memory under its own index. -/
theorem portIndex_of_lt {B : Build S V} {i : Nat} (h : i < B.nmax) : portIndex B i = i := Nat.mod_eq_of_lt h

/-- Settles O34: the read draws the free value `load_unwritten` gives. -/
theorem unwrittenWordsCanBeRead : Obligations.UnwrittenWordsCanBeRead := by
  intro S V B s i hi hw
  refine ⟨B.pack (B.freeWord s.free), ?_⟩
  simp only [transact, sampleRead, portIndex_of_lt hi, load_unwritten hw]

/-- Settles O36: the fields are those of `Fbu.reset`, the registers are evaluated. -/
theorem resetStateHasTheResetValues : Obligations.ResetStateHasTheResetValues :=
  ⟨rfl, rfl, rfl, rfl, rfl, fun _ => rfl, by decide, by decide, by decide, by decide⟩

/-- Settles O41: a step of the machine is a step of the FBU of its configuration. -/
theorem configurationNeverChanges : Obligations.ConfigurationNeverChanges := by
  rintro ⟨c, s⟩ t h
  obtain ⟨f, rfl, -⟩ := step_cases h
  exact ⟨rfl, rfl, HEq.rfl⟩

end Sys2Proof.Machine
end

section
/-!
PROOF. The sample port and its arbitration with the engine (`20_memory.md` R32 to R34, R38).
-/

namespace Sys2Proof.Machine

variable {S V : Type}

/-! The layout of a sample-port vector. -/

theorem unpackWord_re_toNat {ws : Nat} (v : BitVec (ws + ws)) : (unpackWord v).re.toNat = v.toNat % 2 ^ ws :=
  BitVec.extractLsb'_toNat ..

theorem unpackWord_im_toNat {ws : Nat} (v : BitVec (ws + ws)) : (unpackWord v).im.toNat = v.toNat / 2 ^ ws := by
  have hlt : v.toNat / 2 ^ ws < 2 ^ ws := Nat.div_lt_of_lt_mul (Nat.pow_add 2 ws ws ▸ v.isLt)
  rw [unpackWord, BitVec.extractLsb'_toNat, Nat.shiftRight_eq_div_pow, Nat.mod_eq_of_lt hlt]

/-- The halves of a vector, put together again, are the vector. -/
theorem packWord_unpackWord {ws : Nat} (v : BitVec (ws + ws)) : packWord (unpackWord v) = v := by
  apply BitVec.eq_of_toNat_eq
  rw [packWord, toNat_append_mul, unpackWord_re_toNat, unpackWord_im_toNat, Nat.div_add_mod']

/-- The port of every build gives back the vector a word was taken from. -/
theorem pack_unpack (B : Build S V) (v : V) : B.pack (B.unpack v) = v := by
  unfold Build.pack Build.unpack
  cases B.numerics with
  | b64 policy => exact packWord_unpackWord v
  | record R other =>
    simp only [Numerics.pack, Numerics.unpack, R.enc_dec]
    exact packWord_unpackWord v
  | exact ops is => rfl

/-- The port of a configuration takes the halves of a vector as they are. -/
theorem unpack_build (c : Config) (v : c.Port) : (build c).unpack v = unpackWord v := by
  obtain ⟨p, f, policy⟩ := c
  cases f <;> rfl

/-! Sample transactions within the memory. -/

theorem transact_sampleWrite {B : Build S V} {i : Nat} (hi : i < B.nmax) (v : V) (s : Fbu S V) :
    transact B (.sampleWrite i v) s = .next (s.store i (B.unpack v)) := by
  simp only [transact, sampleWrite, portIndex_of_lt hi]

theorem transact_sampleRead_written {B : Build S V} {i : Nat} {s : Fbu S V} {x : Cx S} (hi : i < B.nmax)
    (hx : s.word i = some x) :
    transact B (.sampleRead i) s = .next { s with replies := s.replies ++ [.sample (B.pack x)] } := by
  simp only [transact, sampleRead, portIndex_of_lt hi, load_written hx]

/-- A sample write leaves the unpacked vector in its word and every other word, and the port reads the vector back. -/
theorem sampleWrite_sampleRead {B : Build S V} {i : Nat} (hi : i < B.nmax) (v : V) (s : Fbu S V) :
    ∃ t, transact B (.sampleWrite i v) s = .next t ∧ t = { s with xmem := t.xmem } ∧ t.word i = some (B.unpack v) ∧
      (∀ j, j ≠ i → t.word j = s.word j) ∧
      transact B (.sampleRead i) t = .next { t with replies := t.replies ++ [.sample v] } := by
  have hword : (s.store i (B.unpack v)).word i = some (B.unpack v) := by simp
  refine ⟨_, transact_sampleWrite hi v s, rfl, hword, fun j hj => by simp [hj], ?_⟩
  rw [transact_sampleRead_written hi hword, pack_unpack]

/-- Settles O33: the port stores the two halves of the vector, through `dec` for a record, whose `enc` gives the bits
back. -/
theorem sampleReadReturnsTheWrittenBits : Obligations.SampleReadReturnsTheWrittenBits := by
  refine ⟨fun c s i v hi => ?_, fun R other p rom freeWord legal s i v hi => ?_⟩
  · obtain ⟨t, hwrite, hframe, hword, hother, hread⟩ := sampleWrite_sampleRead hi v s
    rw [unpack_build] at hword
    exact ⟨t, hwrite, hframe, ⟨_, hword, unpackWord_re_toNat v, unpackWord_im_toNat v⟩, hother, hread⟩
  · obtain ⟨t, hwrite, hframe, hword, hother, hread⟩ := sampleWrite_sampleRead hi v s
    refine ⟨t, hwrite, hframe, ⟨_, hword, ?_, ?_⟩, hother, hread⟩
    · exact (congrArg BitVec.toNat (R.enc_dec _)).trans (unpackWord_re_toNat v)
    · exact (congrArg BitVec.toNat (R.enc_dec _)).trans (unpackWord_im_toNat v)

/-! Words outside the active frame. -/

/-- A command touches words of the frame at most. -/
theorem Effect.inactive_word {B : Build S V} {i : Instr} {s t : Fbu S V} (h : Effect B i s t) {j : Nat} (hj : s.len ≤ j) :
    t.word j = s.word j := by
  cases h with
  | same h | error _ _ h | length _ _ _ h | cleared _ h | start _ _ _ _ _ _ _ h => subst h; rfl
  | pair st a ready pow le stage first h =>
    subst h
    exact (butterfly_touches_frame pow stage first).word j (Nat.not_lt.2 hj)

theorem cmdIssue_inactive_word {B : Build S V} {w : Word} {s t : Fbu S V} (h : cmdIssue B w s = .next t) {j : Nat}
    (hj : s.len ≤ j) : t.word j = s.word j := by
  cases hd : decode w with
  | ok i => exact (execOf_effect ((cmdIssue_legal hd s).symm.trans h)).inactive_word hj
  | error e =>
    rw [cmdIssue_illegal hd, illegal] at h
    rcases accepted_cases s fun s => .next (s.raise .illegalCmd w) with ⟨-, ha⟩ | ⟨-, -, ha⟩ | ⟨-, -, ha⟩ <;>
      (rw [ha] at h; cases h; rfl)

/-- Of the transactions only `Reset` and `SampleWrite` reach a word outside the frame. -/
theorem transact_inactive_word {B : Build S V} {x : Transaction V} {s t : Fbu S V} (h : transact B x s = .next t)
    (hreset : x ≠ .reset) (hwrite : ∀ i v, x ≠ .sampleWrite i v) {j : Nat} (hj : s.len ≤ j) : t.word j = s.word j := by
  cases x with
  | cmdIssue w => exact cmdIssue_inactive_word h hj
  | regRead r => cases h; rfl
  | sampleRead i => cases h; exact load_word B s (portIndex B i) j
  | sampleWrite i v => exact absurd rfl (hwrite i v)
  | reset => exact absurd rfl hreset

theorem engineStep_inactive_word {B : Build S V} {s t : Fbu S V} (h : engineStep B s = .next t) {j : Nat}
    (hj : s.len ≤ j) : t.word j = s.word j :=
  (engineStep_touches h).word j (Nat.not_lt.2 hj)

/-- Settles O44: a step is one of the engine, or the transaction that need not wait. -/
theorem inactiveWordsAreKept : Obligations.InactiveWordsAreKept := by
  intro c s t h hfirst j hj
  obtain ⟨f, hft, hf⟩ := step_cases h
  cases hft
  rcases nextStep_cases (build c) s with ⟨-, -, e⟩ | ⟨-, -, e⟩ | ⟨r, rest, -, -, -, e⟩ | ⟨r, rest, hp, hdue, e⟩ <;>
    rw [e] at hf
  · cases hf; rfl
  · exact engineStep_inactive_word hf hj
  · exact engineStep_inactive_word (s := { s with pending := tick s.pending }) hf hj
  · obtain ⟨hreset, hwrite⟩ := hfirst r rest hp hdue
    exact transact_inactive_word (s := { s with pending := rest }) hf hreset hwrite hj

/-! Which agent moves. -/

/-- A busy engine moves while the first request has to wait. -/
theorem nextStep_waits {B : Build S V} {s : Fbu S V} {r : Request V} {rest : List (Request V)}
    (hp : s.pending = r :: rest) (hb : s.busy = true) (hw : mustWait r = true) :
    nextStep B s = engineStep B { s with pending := tick (r :: rest) } := by
  simp [nextStep, hp, hb, hw]

/-- The first request is carried out when the engine is idle or the request need not wait. -/
theorem nextStep_transacts {B : Build S V} {s : Fbu S V} {r : Request V} {rest : List (Request V)}
    (hp : s.pending = r :: rest) (hdue : s.busy = false ∨ mustWait r = false) :
    nextStep B s = transact B r.txn { s with pending := rest } := by
  rcases hdue with h | h <;> simp [nextStep, hp, h]

theorem mustWait_iff {r : Request V} : mustWait r = true ↔ 0 < r.wait ∨ heldWhileBusy r.txn = true := by
  simp [mustWait]

/-- The transactions R34 holds while the engine runs. -/
theorem heldWhileBusy_iff {x : Transaction V} :
    heldWhileBusy x = true ↔ (∃ w, x = .cmdIssue w) ∨ (∃ i, x = .sampleRead i) ∨ ∃ i v, x = .sampleWrite i v := by
  cases x <;> simp [heldWhileBusy]

/-- Settles O31: a held transaction waits for the engine; one that is due and not held, or finds the engine idle, is
carried out. -/
theorem transactionsAreHeldWhileBusy : Obligations.TransactionsAreHeldWhileBusy := by
  intro c s n x rest hp
  refine ⟨fun hb hheld => ?_, fun _ hfree hn => ?_, fun hidle => ?_, heldWhileBusy_iff⟩
  · exact congrArg (lift c) (nextStep_waits hp hb (mustWait_iff.2 (.inr hheld)))
  · have hdue : mustWait { wait := n, txn := x } = false := by simp [mustWait, hn, hfree]
    exact congrArg (lift c) (nextStep_transacts hp (.inr hdue))
  · exact congrArg (lift c) (nextStep_transacts hp (.inl hidle))

end Sys2Proof.Machine
end

section
/-!
PROOF. The encoding (`30_encoding.md` R50 to R56): the decoder said once for each opcode, and from it that decoder,
encoder and opcode table agree.
-/

namespace Sys2Proof

/-! The decoder, opcode by opcode. -/

/-- The `zero` field that a word with the command's opcode has (R51); format B has none. -/
def zeroField (i : Instr) (w : Word) : Nat :=
  match i with
  | .setn _ => bits w 25 22
  | .bfly _ _ => 0
  | .stage _ => bits w 20 0
  | .nop | .clrerr | .bitrev | .conj | .scale | .fft | .ifft => bits w 25 0

/-- The command of the same row with the operands that stand in the word (R52). -/
def Instr.withOperands (i : Instr) (w : Word) : Instr :=
  match i with
  | .setn _ => .setn (bits w 21 0)
  | .bfly _ _ => .bfly (bits w 25 21) (bits w 20 0)
  | .stage _ => .stage (bits w 25 21)
  | .nop | .clrerr | .bitrev | .conj | .scale | .fft | .ifft => i

/-- The decoder on the words of an assigned opcode. -/
theorem decode_of_opcode {i : Instr} {w : Word} (h : bits w 31 26 = opcode i) :
    decode w = ifZero (zeroField i w) (i.withOperands w) := by
  cases i <;> simp only [opcode] at h <;> simp [decode, h, zeroField, Instr.withOperands]
  case bfly => rfl

/-- One command of each row, in the order of the table. -/
def oneOfEachRow : List Instr := [.nop, .setn 0, .clrerr, .bitrev, .bfly 0 0, .stage 0, .conj, .scale, .fft, .ifft]

/-- The ten assigned opcodes. -/
theorem exists_opcode_iff {op : Nat} :
    (∃ i, op = opcode i) ↔ op ∈ [0x00, 0x01, 0x02, 0x08, 0x09, 0x0A, 0x0B, 0x0C, 0x10, 0x11] := by
  constructor
  · rintro ⟨i, rfl⟩
    cases i <;> simp [opcode]
  · intro h
    have hrow : op ∈ oneOfEachRow.map opcode := h
    obtain ⟨i, -, hi⟩ := List.mem_map.1 hrow
    exact ⟨i, hi.symm⟩

/-- The decoder on the words of an unassigned opcode. -/
theorem decode_of_unassigned {w : Word} (h : ¬ ∃ i, bits w 31 26 = opcode i) :
    decode w = .error .unassignedOpcode := by
  simp only [exists_opcode_iff, List.mem_cons, List.not_mem_nil, or_false, not_or] at h
  simp [decode, h]

/-- Everything the decoder can answer, by whether the opcode is assigned. -/
theorem decode_cases (w : Word) :
    (∃ i, bits w 31 26 = opcode i ∧ decode w = ifZero (zeroField i w) (i.withOperands w)) ∨
      ((¬ ∃ i, bits w 31 26 = opcode i) ∧ decode w = .error .unassignedOpcode) := by
  by_cases h : ∃ i, bits w 31 26 = opcode i
  · obtain ⟨i, hi⟩ := h
    exact .inl ⟨i, hi, decode_of_opcode hi⟩
  · exact .inr ⟨h, decode_of_unassigned h⟩

theorem decode_ok_iff {w : Word} {i : Instr} :
    decode w = .ok i ↔ bits w 31 26 = opcode i ∧ zeroField i w = 0 ∧ i = i.withOperands w := by
  constructor
  · intro h
    rcases decode_cases w with ⟨j, hj, e⟩ | ⟨-, e⟩ <;> rw [e] at h
    · obtain ⟨hz, rfl⟩ := ifZero_ok.1 h
      cases j <;> exact ⟨hj, hz, rfl⟩
    · cases h
  · rintro ⟨ho, hz, hi⟩
    exact (decode_of_opcode ho).trans (ifZero_ok.2 ⟨hz, hi⟩)

theorem decode_unassignedOpcode_iff {w : Word} :
    decode w = .error .unassignedOpcode ↔ ¬ ∃ i, bits w 31 26 = opcode i := by
  refine ⟨?_, decode_of_unassigned⟩
  rintro h ⟨i, hi⟩
  cases (ifZero_error.1 ((decode_of_opcode hi).symm.trans h)).2

theorem decode_nonzeroZeroField_iff {w : Word} :
    decode w = .error .nonzeroZeroField ↔ ∃ i, bits w 31 26 = opcode i ∧ zeroField i w ≠ 0 := by
  constructor
  · intro h
    rcases decode_cases w with ⟨i, hi, e⟩ | ⟨-, e⟩ <;> rw [e] at h
    · exact ⟨i, hi, (ifZero_error.1 h).1⟩
    · cases h
  · rintro ⟨i, hi, hz⟩
    exact (decode_of_opcode hi).trans (ifZero_error.2 ⟨hz, rfl⟩)

/-! Decoding and encoding. -/

theorem bits_lt (w : Word) (hi lo : Nat) : bits w hi lo < 2 ^ (hi + 1 - lo) := Nat.mod_lt _ (Nat.two_pow_pos _)

/-- Operands read from a word fit their fields. -/
theorem wellFormed_withOperands (i : Instr) (w : Word) : (i.withOperands w).wellFormed = true := by
  have h := bits_lt w
  cases i <;> simp only [Instr.withOperands, Instr.wellFormed, Bool.and_eq_true, decide_eq_true_eq]
  case setn n => exact h 21 0
  case bfly st a => exact ⟨h 25 21, h 20 0⟩
  case stage st => exact h 25 21

/-- No operand reaches the opcode field. -/
theorem opcode_encode {i : Instr} (h : i.wellFormed = true) : bits (encode i) 31 26 = opcode i := by
  have ho := opcode_lt i
  have hf := fields_lt h
  rw [bits, encode_toNat h]
  omega

/-- No operand reaches the `zero` field. -/
theorem zeroField_encode {i : Instr} (h : i.wellFormed = true) : zeroField i (encode i) = 0 := by
  have hn := encode_toNat h
  cases i <;> simp only [Instr.wellFormed, Bool.and_eq_true, decide_eq_true_eq, opcode, fields] at h hn <;>
    simp only [zeroField, bits, hn] <;> omega

/-- The operands stand in their fields. -/
theorem withOperands_encode {i : Instr} (h : i.wellFormed = true) : i.withOperands (encode i) = i := by
  have hn := encode_toNat h
  cases i <;> simp only [Instr.wellFormed, Bool.and_eq_true, decide_eq_true_eq, opcode, fields] at h hn <;>
    simp only [Instr.withOperands, bits, hn, Instr.setn.injEq, Instr.bfly.injEq, Instr.stage.injEq] <;> omega

/-- Settles O1: opcode, `zero` field and operands stand in the word where the decoder reads them. -/
theorem decodeEncodeRoundTrip : Obligations.DecodeEncodeRoundTrip := fun _ h =>
  decode_ok_iff.2 ⟨opcode_encode h, zeroField_encode h, (withOperands_encode h).symm⟩

/-- Settles O2: the word is opcode and fields, and the operands were read from fields. -/
theorem encodeGivesTheDecodedWord : Obligations.EncodeGivesTheDecodedWord := by
  intro w i h
  obtain ⟨-, -, hi⟩ := decode_ok_iff.1 h
  exact ⟨Machine.encode_of_decode h, hi ▸ wellFormed_withOperands i w⟩

/-- Settles O4: the opcode is one of no command, or the `zero` field of its command is not zero. -/
theorem illegalWordsAreTheReservedOnes : Obligations.IllegalWordsAreTheReservedOnes := by
  intro w
  refine ⟨decode_unassignedOpcode_iff.trans (not_congr exists_opcode_iff), decode_nonzeroZeroField_iff.trans ⟨?_, ?_⟩⟩
  · rintro ⟨i, ho, hz⟩
    cases i
    case setn => exact .inr (.inl ⟨ho, hz⟩)
    case bfly => exact absurd rfl hz
    case stage => exact .inr (.inr ⟨ho, hz⟩)
    all_goals exact .inl ⟨by simp [ho, opcode], hz⟩
  · rintro (⟨ho, hz⟩ | ⟨ho, hz⟩ | ⟨ho, hz⟩)
    · simp only [List.mem_cons, List.not_mem_nil, or_false] at ho
      rcases ho with ho | ho | ho | ho | ho | ho | ho
      exacts [⟨.nop, ho, hz⟩, ⟨.clrerr, ho, hz⟩, ⟨.bitrev, ho, hz⟩, ⟨.conj, ho, hz⟩, ⟨.scale, ho, hz⟩,
        ⟨.fft, ho, hz⟩, ⟨.ifft, ho, hz⟩]
    · exact ⟨.setn 0, ho, hz⟩
    · exact ⟨.stage 0, ho, hz⟩

/-! The opcode table. -/

/-- Masking out the field `[lo, hi)` keeps the bits above and below it. -/
theorem and_mask_outside {lo hi k : Nat} (h : lo ≤ hi) (n : Nat) :
    n &&& (2 ^ hi * (2 ^ k - 1) + (2 ^ lo - 1)) = 2 ^ hi * (n / 2 ^ hi % 2 ^ k) + n % 2 ^ lo := by
  have hpow : 2 ^ lo ≤ 2 ^ hi := Nat.pow_le_pow_right two_pos h
  have hones : 2 ^ lo - 1 < 2 ^ hi := by have := Nat.two_pow_pos lo; omega
  have hlow : n % 2 ^ lo < 2 ^ hi := (Nat.mod_lt n (Nat.two_pow_pos lo)).trans_le hpow
  apply Nat.eq_of_testBit_eq
  intro j
  rw [Nat.testBit_and, Nat.testBit_two_pow_mul_add _ hones, Nat.testBit_two_pow_mul_add _ hlow]
  split
  · simp [Nat.testBit_mod_two_pow, Nat.testBit_two_pow_sub_one, Bool.and_comm]
  · next hj =>
    obtain ⟨d, rfl⟩ := Nat.exists_eq_add_of_le (Nat.not_lt.1 hj)
    simp [Nat.testBit_mod_two_pow, Nat.testBit_two_pow_sub_one, Nat.testBit_div_two_pow, Bool.and_comm, Nat.add_comm]

/-- A row whose mask leaves out the operand field `[lo, hi)` compares the bits above it and below it. -/
theorem selects_iff {lo hi k : Nat} (h : lo ≤ hi) {r : OpcodeRow}
    (hmask : r.mask.toNat = 2 ^ hi * (2 ^ k - 1) + (2 ^ lo - 1)) (w : Word) :
    r.selects w = true ↔ 2 ^ hi * (w.toNat / 2 ^ hi % 2 ^ k) + w.toNat % 2 ^ lo = r.pattern.toNat := by
  rw [OpcodeRow.selects, beq_iff_eq, ← BitVec.toNat_inj, BitVec.toNat_and, hmask, and_mask_outside h]

theorem rowIndex_lt (i : Instr) : rowIndex i < opcodeRows.length := by
  cases i <;> simp [rowIndex, opcodeRows]

/-- The row of a command. -/
def opcodeRow (i : Instr) : OpcodeRow := opcodeRows[rowIndex i]'(rowIndex_lt i)

theorem getElem?_rowIndex (i : Instr) : opcodeRows[rowIndex i]? = some (opcodeRow i) :=
  List.getElem?_eq_getElem (rowIndex_lt i)

/-- Every row is the row of a command. -/
theorem exists_rowIndex {k : Nat} (h : k < opcodeRows.length) : ∃ i, rowIndex i = k := by
  have hk : k ∈ oneOfEachRow.map rowIndex := List.mem_range.2 h
  obtain ⟨i, -, hi⟩ := List.mem_map.1 hk
  exact ⟨i, hi⟩

theorem opcodeRow_pattern (i : Instr) : (opcodeRow i).pattern.toNat = 2 ^ 26 * opcode i := by
  cases i <;> rfl

/-- A row selects the words with its opcode and a `zero` field of zeros (R54). -/
theorem opcodeRow_selects_iff (i : Instr) (w : Word) :
    (opcodeRow i).selects w = true ↔ bits w 31 26 = opcode i ∧ zeroField i w = 0 := by
  have hpattern := opcodeRow_pattern i
  have hw := w.isLt
  cases i <;> simp only [bits, zeroField, opcode, and_true] at hpattern ⊢
  case setn n => rw [selects_iff (lo := 0) (hi := 22) (k := 10) (by decide) rfl, hpattern]; omega
  case bfly st a => rw [selects_iff (lo := 0) (hi := 26) (k := 6) (by decide) rfl, hpattern]; omega
  case stage st => rw [selects_iff (lo := 21) (hi := 26) (k := 6) (by decide) rfl, hpattern]; omega
  all_goals rw [selects_iff (lo := 26) (hi := 26) (k := 6) le_rfl rfl, hpattern]; omega

theorem rowIndex_withOperands (i : Instr) (w : Word) : rowIndex (i.withOperands w) = rowIndex i := by
  cases i <;> rfl

/-- Settles O3: a row selects a word when the decoder reads the row's command from it. -/
theorem decodingSelectsTheMatchingRow : Obligations.DecodingSelectsTheMatchingRow := by
  intro w
  constructor
  · intro i h
    obtain ⟨ho, hz, -⟩ := decode_ok_iff.1 h
    exact ⟨opcodeRow i, getElem?_rowIndex i, (opcodeRow_selects_iff i w).2 ⟨ho, hz⟩⟩
  · intro k r hr hsel
    obtain ⟨hk, -⟩ := List.getElem?_eq_some_iff.1 hr
    obtain ⟨i, rfl⟩ := exists_rowIndex hk
    cases (getElem?_rowIndex i).symm.trans hr
    obtain ⟨ho, hz⟩ := (opcodeRow_selects_iff i w).1 hsel
    exact ⟨i.withOperands w, (decode_of_opcode ho).trans (ifZero_ok.2 ⟨hz, rfl⟩), rowIndex_withOperands i w⟩

/-- Settles O5: sixteen closed words, evaluated. -/
theorem specWordsDecode : Obligations.SpecWordsDecode := by
  unfold Obligations.SpecWordsDecode
  decide

end Sys2Proof
end

section
/-!
PROOF. The command language and the command port (`30_encoding.md` R56 to R58): lines as transactions, the step that
takes a command, and the pseudo-commands `fft.parts` and `ifft.parts` at the command level.
-/

namespace Sys2Proof.Machine

variable {S V : Type}

/-- Settles O6: a command line stands for its one command, whatever the build and the length. -/
theorem assemblerAcceptsWhatFits : Obligations.AssemblerAcceptsWhatFits := by
  intro S V B l i
  simp [Asm.transactions, Asm.expansion]

/-! The step that takes a command. -/

/-- An idle FBU takes the first request, whatever its number. -/
theorem step_cmdIssue {c : Config} {s : Fbu c.Scalar c.Port} {n : Nat} {w : Word} {rest : List (Request c.Port)}
    (hidle : s.busy = false) (hp : s.pending = { wait := n, txn := .cmdIssue w } :: rest) :
    step ⟨c, s⟩ = lift c (cmdIssue (build c) w { s with pending := rest }) :=
  congrArg (lift c) (nextStep_transacts hp (.inl hidle))

theorem step_legal {c : Config} {s : Fbu c.Scalar c.Port} {n : Nat} {w : Word} {rest : List (Request c.Port)} {i : Instr}
    (hidle : s.busy = false) (hp : s.pending = { wait := n, txn := .cmdIssue w } :: rest) (hd : decode w = .ok i) :
    step ⟨c, s⟩ = exec i ⟨c, { s with pending := rest }⟩ := by
  rw [step_cmdIssue hidle hp, cmdIssue_legal hd, exec_mk]

/-- The table gives every row the whole word. -/
theorem tableWord_toNat (w : Word) : tableWord 32 w.toNat = w := by
  rw [tableWord, Nat.mod_eq_of_lt w.isLt, BitVec.ofNat_toNat, BitVec.setWidth_eq]

/-- Settles O30: an idle FBU takes the command at once, also the one that `withFetchWord` presents. -/
theorem stepRunsTheDecodedCommand : Obligations.StepRunsTheDecodedCommand := by
  refine ⟨fun c s n w rest hidle hp => ⟨fun i hd => step_legal hidle hp hd, fun e hd => ?_⟩, fun c s w i hd => ?_⟩
  · rw [step_cmdIssue hidle hp, cmdIssue_illegal hd]
  · rw [withFetchWord_mk, tableWord_toNat]
    exact step_legal (busy_rest _ rfl) rfl hd

/-! Sequences of commands at the command level. -/

theorem runCommands_append {B : Build S V} {is : List Instr} {s t : Fbu S V} (h : runCommands B is s = .next t)
    (js : List Instr) : runCommands B (is ++ js) s = runCommands B js t := by
  induction is generalizing s with
  | nil => cases h; rfl
  | cons i is ih =>
    rw [runCommands] at h
    rw [List.cons_append, runCommands]
    cases hi : commandLevel B i s with
    | next u => rw [hi] at h; exact ih h
    | fault f => rw [hi] at h; cases h
    | refused r => rw [hi] at h; cases h

theorem ispow2_two_pow (l : Nat) : ispow2 (2 ^ l) = true := by
  have hpos := Nat.two_pow_pos l
  rw [ispow2, (Nat.and_sub_one_eq_zero_iff_isPowerOfTwo hpos.ne').2 ⟨l, rfl⟩]
  simp

theorem log2_two_pow (l : Nat) : log2 (2 ^ l) = l := Nat.log2_two_pow

/-- A datapath command passes its checks when the FBU is ready and the length is a power of two within the memory. -/
theorem guarded_runs {B : Build S V} {s : Fbu S V} {l : Nat} (hr : Ready s) (hl : HasLength B s l) (i : Instr)
    (run : Nat → Nat → Out S V) : guarded B i s run = run (2 ^ l) l := by
  have hle : 2 ^ l ≤ B.nmax := Nat.pow_le_pow_right two_pos hl.2
  rw [guarded, accepted_ready hr, hl.1, ispow2_two_pow, log2_two_pow, if_pos rfl, if_pos hle]

/-- The commands pass their checks in a ready FBU of length `2^L`, have the effect `f` together, and leave the FBU ready
and its length as it was. -/
def RunsAs (B : Build S V) (l : Nat) (is : List Instr) (f : Fbu S V → Fbu S V) : Prop :=
  ∀ s, Ready s → HasLength B s l → runCommands B is s = .next (f s) ∧ Ready (f s) ∧ HasLength B (f s) l

theorem RunsAs.append {B : Build S V} {l : Nat} {is js : List Instr} {f g : Fbu S V → Fbu S V}
    (hf : RunsAs B l is f) (hg : RunsAs B l js g) : RunsAs B l (is ++ js) (fun s => g (f s)) := by
  intro s hr hl
  obtain ⟨hrun, hr', hl'⟩ := hf s hr hl
  obtain ⟨hrun', hout⟩ := hg (f s) hr' hl'
  exact ⟨(runCommands_append hrun js).trans hrun', hout⟩

/-- One command whose effect is on words and the count of free values alone. -/
theorem runsAs_single {B : Build S V} {l : Nat} {i : Instr} {f : Fbu S V → Fbu S V}
    (hrun : ∀ s, Ready s → HasLength B s l → commandLevel B i s = .next (f s))
    (htouch : ∀ s, Touches (fun _ => True) s (f s)) : RunsAs B l [i] f := by
  intro s hr hl
  have ht := htouch s
  refine ⟨by simp [runCommands, hrun s hr hl], ⟨?_, ht.err.trans hr.2⟩, (len_congr ht.nlen).trans hl.1, hl.2⟩
  exact (busy_congr ht.seq).trans hr.1

/-- A loop of elementary operations changes nothing but words and the count of free values. -/
theorem forBelow_touches_words {n : Nat} {body : Nat → Fbu S V → Fbu S V} {P : Nat → Nat → Prop}
    (h : ∀ j s, Touches (P j) s (body j s)) (s : Fbu S V) : Touches (fun _ => True) s (forBelow n body s) :=
  forBelow_touches (fun j _ s => (h j s).mono fun _ _ => trivial) s

theorem runsAs_bitrev (B : Build S V) (l : Nat) : RunsAs B l [.bitrev] (revLoop B (2 ^ l) l) :=
  runsAs_single (fun s hr hl => by rw [commandLevel, guarded_runs hr hl]) (forBelow_touches_words (revBody_touches B l))

theorem runsAs_conj (B : Build S V) (l : Nat) : RunsAs B l [.conj] (conjLoop B (2 ^ l)) :=
  runsAs_single (fun s hr hl => by rw [commandLevel, guarded_runs hr hl]) (forBelow_touches_words (cnjBody_touches B))

theorem runsAs_scale (B : Build S V) (l : Nat) : RunsAs B l [.scale] (scaleLoop B (2 ^ l) l) :=
  runsAs_single (fun s hr hl => by rw [commandLevel, guarded_runs hr hl]) (forBelow_touches_words (sclBody_touches B l))

theorem runsAs_stage (B : Build S V) {l st : Nat} (h : legalStage l st = true) :
    RunsAs B l [.stage st] (stageLoop B (2 ^ l) st) :=
  runsAs_single (fun s hr hl => by rw [commandLevel, guarded_runs hr hl, if_pos h])
    (forBelow_touches_words fun j => butterfly_touches B st (pairFirst st j))

/-- `stage 1 ; … ; stage m` is the loop of `FFT` over its first `m` stages. -/
theorem runsAs_stages (B : Build S V) {l m : Nat} (h : m ≤ l) :
    RunsAs B l (Asm.stages m) (forBelow m fun k => stageLoop B (2 ^ l) (k + 1)) := by
  induction m with
  | zero => exact fun s hr hl => ⟨rfl, hr, hl⟩
  | succ m ih => exact (ih (by omega)).append (runsAs_stage B (legalStage_iff.2 ⟨by omega, h⟩))

theorem runsAs_fftParts (B : Build S V) (l : Nat) : RunsAs B l (.bitrev :: Asm.stages l) (fftLoops B (2 ^ l) l) :=
  (runsAs_bitrev B l).append (runsAs_stages B le_rfl)

theorem runsAs_ifftParts (B : Build S V) (l : Nat) :
    RunsAs B l (.conj :: .bitrev :: (Asm.stages l ++ [.conj, .scale])) (ifftLoops B (2 ^ l) l) :=
  ((runsAs_conj B l).append (runsAs_fftParts B l)).append ((runsAs_conj B l).append (runsAs_scale B l))

/-- Settles O25: the parts are the loops of the whole transform, and pass the same checks. -/
theorem partsEqualTheWholeTransforms : Obligations.PartsEqualTheWholeTransforms := by
  intro S V B s l hr hl
  constructor
  · rw [commandLevel, guarded_runs hr hl]
    exact (runsAs_fftParts B l s hr hl).1
  · rw [commandLevel, guarded_runs hr hl]
    exact (runsAs_ifftParts B l s hr hl).1

end Sys2Proof.Machine
end

section
/-!
PROOF. The laws of the index arithmetic (`40_numeric_datapath.md` R84 to R86): powers of two, bit reversal, and the
pairs of a stage.
-/

namespace Sys2Proof.Machine

/-- Settles O51: the power of two with `log2 n` as exponent is `n`. -/
theorem powerOfTwoTest : Obligations.PowerOfTwoTest := by
  refine fun n => ⟨⟨fun h => ⟨log2 n, eq_two_pow_log2 h⟩, ?_⟩, ?_⟩
  · rintro ⟨l, rfl⟩
    exact ispow2_two_pow l
  · rintro l rfl
    exact log2_two_pow l

/-! Bit reversal. -/

/-- The bits of `brev_L(i)`: those of `i` below bit `L`, in reverse order. -/
theorem testBit_brev (l i b : Nat) : (brev l i).testBit b = (decide (b < l) && i.testBit (l - 1 - b)) := by
  induction l generalizing i b with
  | zero => simp [brev]
  | succ l ih =>
    rw [brev, mul_comm, Nat.testBit_two_pow_mul_add _ (brev_lt l (i / 2)), ih, Nat.testBit_div_two]
    by_cases hb : b < l
    · rw [if_pos hb, show l + 1 - 1 - b = l - 1 - b + 1 by omega]
      simp [hb, Nat.lt_succ_of_lt hb]
    · have hbit := Nat.testBit_mod_two_pow i 1 (b - l)
      rw [pow_one] at hbit
      rw [if_neg hb, hbit, show l + 1 - 1 - b = b - l - (b - l) by omega]
      rcases eq_or_ne b l with rfl | hne
      · simp
      · simp [show ¬ b - l < 1 by omega, show ¬ b < l + 1 by omega]

theorem brev_brev {l i : Nat} (h : i < 2 ^ l) : brev l (brev l i) = i := by
  refine Nat.eq_of_testBit_eq fun b => ?_
  rw [testBit_brev, testBit_brev]
  by_cases hb : b < l
  · rw [show l - 1 - (l - 1 - b) = b by omega]
    simp [hb, show l - 1 - b < l by omega]
  · have hi : i.testBit b = false := Nat.testBit_lt_two_pow (h.trans_le (Nat.pow_le_pow_right two_pos (not_lt.1 hb)))
    simp [hb, hi]

/-- R86's formula, whatever the argument. -/
theorem brev_eq_sum (l i : Nat) : brev l i = ∑ b ∈ Finset.range l, (i.testBit b).toNat * 2 ^ (l - 1 - b) := by
  induction l generalizing i with
  | zero => rfl
  | succ l ih =>
    rw [brev, ih, Finset.sum_range_succ', add_comm]
    congr 1
    · refine Finset.sum_congr rfl fun b hb => ?_
      rw [Nat.testBit_div_two, show l + 1 - 1 - (b + 1) = l - 1 - b by omega]
    · rw [Nat.testBit_zero]
      rcases Nat.mod_two_eq_zero_or_one i with hi | hi <;> simp [hi]

theorem brev_even (l g : Nat) : brev (l + 1) (2 * g) = brev l g := by simp [brev]

theorem brev_odd (l g : Nat) : brev (l + 1) (2 * g + 1) = 2 ^ l + brev l g := by
  rw [brev, show (2 * g + 1) % 2 = 1 by omega, show (2 * g + 1) / 2 = g by omega, one_mul]

/-- Settles O52: from the bits of `brev_L(i)` and its recursion. -/
theorem bitReversalLaws : Obligations.BitReversalLaws := by
  refine ⟨fun l i hi => ⟨brev_lt l i, brev_brev hi, fun b hb => ?_, brev_eq_sum l i⟩,
    fun l g _ => ⟨brev_even l g, brev_odd l g⟩, ?_⟩
  · rw [testBit_brev, show l - 1 - (l - 1 - b) = b by omega, decide_eq_true (by omega), Bool.true_and]
  · decide

/-! The pairs of a stage. -/

theorem pairPos_lt (st j : Nat) : pairPos st j < half st := Nat.mod_lt _ (half_pos st)

/-- The frame is `2^(L−s)` blocks, each with `half` butterflies. -/
theorem butterflies_eq {l st : Nat} (h : legalStage l st = true) : 2 ^ l / 2 = 2 ^ (l - st) * half st := by
  rw [two_pow_eq_blocks h, Nat.mul_div_cancel_left _ two_pos]

theorem block_lt {l st j : Nat} (h : legalStage l st = true) (hj : j < 2 ^ l / 2) : j / half st < 2 ^ (l - st) :=
  Nat.div_lt_of_lt_mul (by rwa [mul_comm, ← butterflies_eq h])

theorem legalFirst_iff_testBit {n st a : Nat} : legalFirst n st a = true ↔ a < n ∧ a.testBit (st - 1) = false := by
  simp [legalFirst]

/-- `a + half` sets the bit that is clear in `a`. -/
theorem pairSecond_eq_or {st : Nat} (h : 1 ≤ st) (j : Nat) :
    pairSecond st (pairFirst st j) = pairFirst st j ||| half st := by
  have hk := pairPos_lt st j
  have hhalf := half_pos st
  have hst := two_mul_half h
  have hfirst : pairFirst st j = 2 ^ st * (j / half st) ||| pairPos st j := by
    rw [← Nat.two_pow_add_eq_or_of_lt (by omega), mul_comm, pairFirst]
  have hupper : pairPos st j ||| half st = half st + pairPos st j := by
    rw [add_comm]; exact Nat.or_two_pow_eq_add_of_lt hk
  calc pairSecond st (pairFirst st j) = 2 ^ st * (j / half st) + (half st + pairPos st j) := by
        rw [pairSecond, pairFirst]; ring
    _ = 2 ^ st * (j / half st) ||| (pairPos st j ||| half st) := by
        rw [hupper]; exact Nat.two_pow_add_eq_or_of_lt (by omega) _
    _ = pairFirst st j ||| half st := by rw [hfirst, Nat.or_assoc]

/-! The block and the position can be read off the first word. -/

theorem pairFirst_div {st : Nat} (h : 1 ≤ st) (j : Nat) : pairFirst st j / 2 ^ st = j / half st := by
  have hk := pairPos_lt st j
  have hst := two_mul_half h
  rw [pairFirst, mul_comm, Nat.mul_add_div (Nat.two_pow_pos st), Nat.div_eq_of_lt (a := pairPos st j) (by omega),
    add_zero]

theorem pairFirst_mod {st : Nat} (h : 1 ≤ st) (j : Nat) : pairFirst st j % 2 ^ st = pairPos st j := by
  have hk := pairPos_lt st j
  have hst := two_mul_half h
  rw [pairFirst, mul_comm, Nat.mul_add_mod, Nat.mod_eq_of_lt (by omega)]

theorem pairFirst_injective {st : Nat} (h : 1 ≤ st) : Function.Injective (pairFirst st) := by
  intro j j' hjj
  have hdiv : j / half st = j' / half st := by rw [← pairFirst_div h, hjj, pairFirst_div h]
  have hmod : j % half st = j' % half st := by
    have := pairFirst_mod h j
    rwa [hjj, pairFirst_mod h, eq_comm] at this
  rw [← Nat.div_add_mod j (half st), hdiv, hmod, Nat.div_add_mod]

/-- Every index of the frame whose bit `s−1` is clear is the first word of a butterfly. -/
theorem exists_pairFirst {l st i : Nat} (hs : legalStage l st = true) (hi : legalFirst (2 ^ l) st i = true) :
    ∃ j, j < 2 ^ l / 2 ∧ pairFirst st j = i := by
  obtain ⟨hlt, heven⟩ := legalFirst_iff.1 hi
  have h1 := (legalStage_iff.1 hs).1
  have hpos : i % half st < half st := Nat.mod_lt _ (half_pos st)
  have hlow : i % 2 ^ st = i % half st := by rw [two_mul_half h1, mul_comm, Nat.mod_mul, heven, mul_zero, add_zero]
  have hblock : i / 2 ^ st < 2 ^ (l - st) := by
    refine Nat.div_lt_of_lt_mul ?_
    rwa [← pow_add, Nat.add_sub_cancel' (legalStage_iff.1 hs).2]
  refine ⟨half st * (i / 2 ^ st) + i % half st, ?_, ?_⟩
  · have hnext : (i / 2 ^ st + 1) * half st ≤ 2 ^ (l - st) * half st := Nat.mul_le_mul_right _ hblock
    rw [butterflies_eq hs]
    linarith
  · rw [pairFirst, pairPos, Nat.mul_add_div (half_pos st), Nat.mul_add_mod, Nat.mod_mod, Nat.div_eq_of_lt hpos,
      add_zero, ← hlow, Nat.div_add_mod']

/-- Every index of the frame whose bit `s−1` is set is the second word of a butterfly. -/
theorem exists_pairSecond {l st i : Nat} (hs : legalStage l st = true) (hi : i < 2 ^ l)
    (hbit : i.testBit (st - 1) = true) : ∃ j, j < 2 ^ l / 2 ∧ pairSecond st (pairFirst st j) = i := by
  have hge : half st ≤ i := Nat.ge_two_pow_of_testBit hbit
  have hclear : (i - half st) / half st % 2 = 0 := by
    have hodd : i / half st % 2 = 1 := by simpa [half, Nat.testBit_eq_decide_div_mod_eq] using hbit
    have hdiv := Nat.sub_mul_div i (half st) 1
    rw [mul_one] at hdiv
    omega
  obtain ⟨j, hj, hfirst⟩ := exists_pairFirst hs (legalFirst_iff.2 ⟨(Nat.sub_le i _).trans_lt hi, hclear⟩)
  exact ⟨j, hj, by rw [hfirst, pairSecond, Nat.sub_add_cancel hge]⟩

/-- The positions of stage `s` reach the ROM up to `NMAX/2 − NMAX/2^s` (R84). -/
theorem romIndex_le {S V : Type} (B : Build S V) {st k : Nat} (h1 : 1 ≤ st) (hle : st ≤ B.logNMax) (hk : k < half st) :
    romIndex B k st ≤ B.nmax / 2 - B.nmax / 2 ^ st := by
  have hs := legalStage_iff.2 ⟨h1, hle⟩
  have hlast : B.nmax / 2 ^ st = 2 ^ (B.logNMax - st) := Nat.pow_div hle two_pos
  have hnext : (k + 1) * 2 ^ (B.logNMax - st) ≤ half st * 2 ^ (B.logNMax - st) := Nat.mul_le_mul_right _ hk
  rw [romIndex, hlast, Build.nmax, butterflies_eq hs, mul_comm _ (half st)]
  exact Nat.le_sub_of_add_le ((Nat.succ_mul k _).symm.trans_le hnext)

/-- Settles O53: the pairs run through the legal first words and their partners. -/
theorem butterflyPairsPartitionTheFrame : Obligations.ButterflyPairsPartitionTheFrame := by
  intro S V B l st hl h1 hst
  have hs := legalStage_iff.2 ⟨h1, hst⟩
  refine ⟨fun j hj => ?_, fun j j' _ _ h => pairFirst_injective h1 h, fun i hi hbit => ?_,
    fun i hi hbit => exists_pairSecond hs hi hbit⟩
  · have hfirst := legalFirst_pairFirst hs hj
    have hsecond := pairSecond_lt hs hfirst
    refine ⟨block_lt hs hj, pairPos_lt st j, ?_, (legalFirst_iff_testBit.1 hfirst).2, pairSecond_eq_or h1 j,
      Nat.le_add_left _ _, hsecond, romIndex_le B h1 (hst.trans hl) (pairPos_lt st j)⟩
    rw [pairSecond] at hsecond
    omega
  · exact exists_pairFirst hs (legalFirst_iff_testBit.2 ⟨hi, hbit⟩)

end Sys2Proof.Machine
end

section
/-!
PROOF. Binary64 patterns (`40_numeric_datapath.md` R71): a pattern is a sign and the low 63 bits, and the low 63 bits
say which kind of datum it is.
-/

namespace Sys2Proof.Machine.Binary64

/-- The low 63 bits of a pattern: the exponent field over the fraction field. -/
def low (x : Scalar) : Nat := x.toNat % 2 ^ 63

theorem low_lt (x : Scalar) : low x < 2 ^ 63 := Nat.mod_lt _ (Nat.two_pow_pos _)

theorem infLow_lt : infLow < 2 ^ 63 := by decide

theorem sign_eq (x : Scalar) : sign x = decide (2 ^ 63 ≤ x.toNat) := by
  have := x.isLt
  rw [sign, BitVec.getLsbD, Nat.testBit_eq_decide_div_mod_eq]
  exact decide_eq_decide.2 (by omega)

theorem toNat_withSign {n : Nat} (h : n < 2 ^ 63) (sg : Bool) : (withSign sg n).toNat = 2 ^ 63 * sg.toNat + n := by
  rw [withSign, BitVec.toNat_ofNat]
  cases sg
  · exact (Nat.mod_eq_of_lt (by simp; omega)).trans (by simp)
  · exact (Nat.mod_eq_of_lt (by simp; omega)).trans (by simp)

theorem sign_withSign {n : Nat} (h : n < 2 ^ 63) (sg : Bool) : sign (withSign sg n) = sg := by
  rw [sign_eq, toNat_withSign h]
  cases sg
  · simpa using h
  · simp

theorem low_withSign {n : Nat} (h : n < 2 ^ 63) (sg : Bool) : low (withSign sg n) = n := by
  rw [low, toNat_withSign h, Nat.mul_add_mod, Nat.mod_eq_of_lt h]

theorem toNat_eq (x : Scalar) : x.toNat = 2 ^ 63 * (sign x).toNat + low x := by
  have := x.isLt
  rw [sign_eq, low]
  by_cases h : 2 ^ 63 ≤ x.toNat
  · rw [decide_eq_true h, Bool.toNat_true]; omega
  · rw [decide_eq_false h, Bool.toNat_false]; omega

theorem withSign_sign_low (x : Scalar) : withSign (sign x) (low x) = x :=
  BitVec.eq_of_toNat_eq ((toNat_withSign (low_lt x) _).trans (toNat_eq x).symm)

/-- A pattern is its sign and its low 63 bits. -/
theorem ext_sign_low {x y : Scalar} (hs : sign x = sign y) (hl : low x = low y) : x = y := by
  rw [← withSign_sign_low x, hs, hl, withSign_sign_low]

/-! The fields and the kinds of data, in terms of the low 63 bits. -/

theorem expo_eq (x : Scalar) : expo x = low x / 2 ^ 52 := by
  rw [expo, low]; omega

theorem frac_eq (x : Scalar) : frac x = low x % 2 ^ 52 := by
  rw [frac, low]; omega

theorem isNaN_iff {x : Scalar} : isNaN x = true ↔ infLow < low x := by
  have := low_lt x
  simp only [isNaN, expo_eq, frac_eq, infLow, Bool.and_eq_true, beq_iff_eq, bne_iff_ne]
  omega

theorem isInf_iff {x : Scalar} : isInf x = true ↔ low x = infLow := by
  simp only [isInf, expo_eq, frac_eq, infLow, Bool.and_eq_true, beq_iff_eq]
  omega

theorem isZero_iff {x : Scalar} : isZero x = true ↔ low x = 0 := by
  simp only [isZero, expo_eq, frac_eq, Bool.and_eq_true, beq_iff_eq]
  omega

theorem isFinite_iff {x : Scalar} : isFinite x = true ↔ low x < infLow := by
  have := low_lt x
  simp only [isFinite, expo_eq, infLow, bne_iff_ne]
  omega

theorem isNaN_of_isFinite {x : Scalar} (h : isFinite x = true) : isNaN x = false :=
  Bool.eq_false_iff.2 fun hn => absurd (isNaN_iff.1 hn) (isFinite_iff.1 h).not_gt

theorem isInf_of_isFinite {x : Scalar} (h : isFinite x = true) : isInf x = false :=
  Bool.eq_false_iff.2 fun hi => absurd (isInf_iff.1 hi) (isFinite_iff.1 h).ne

/-! Patterns given by their low 63 bits. -/

theorem isNaN_withSign {n : Nat} (h : n ≤ infLow) (sg : Bool) : isNaN (withSign sg n) = false :=
  Bool.eq_false_iff.2 fun hn => by
    have := isNaN_iff.1 hn
    rw [low_withSign (h.trans_lt infLow_lt)] at this
    omega

theorem isNaN_zero (sg : Bool) : isNaN (zero sg) = false := isNaN_withSign (Nat.zero_le _) sg

theorem isNaN_inf (sg : Bool) : isNaN (inf sg) = false := isNaN_withSign le_rfl sg

theorem roundMag_le (m k : Nat) : roundMag m k ≤ infLow := Nat.min_le_right _ _

theorem isNaN_RN (sg : Bool) (m k : Nat) : isNaN (RN sg m k) = false := isNaN_withSign (roundMag_le m k) sg

/-- A zero is known by its sign (R71). -/
theorem eq_zero_of_isZero {x : Scalar} (h : isZero x = true) : x = zero (sign x) := by
  rw [zero, ← isZero_iff.1 h, withSign_sign_low]

/-! Negation (R74). -/

theorem low_fneg (x : Scalar) : low (fneg x) = low x := by
  rw [low, fneg, BitVec.toNat_xor, Nat.xor_mod_two_pow]
  exact Nat.xor_zero _

theorem sign_fneg (x : Scalar) : sign (fneg x) = !sign x := by
  simp [sign, fneg]

theorem fneg_fneg (x : Scalar) : fneg (fneg x) = x := by
  rw [fneg, fneg, BitVec.xor_assoc, BitVec.xor_self, BitVec.xor_zero]

theorem isNaN_fneg (x : Scalar) : isNaN (fneg x) = isNaN x := by
  simp only [isNaN, expo_eq, frac_eq, low_fneg]

theorem isInf_fneg (x : Scalar) : isInf (fneg x) = isInf x := by
  simp only [isInf, expo_eq, frac_eq, low_fneg]

theorem isFinite_fneg (x : Scalar) : isFinite (fneg x) = isFinite x := by
  simp only [isFinite, expo_eq, low_fneg]

end Sys2Proof.Machine.Binary64
end

section
/-!
PROOF. NaN results (`40_numeric_datapath.md` R73 to R75): each operation by its cases, and what makes the result a NaN.
-/

namespace Sys2Proof.Machine.Binary64

/-- `fsub` is `fadd` of the negation, for NaN operands too (R73). -/
theorem fsub_eq_fadd (nan x y : Scalar) : fsub nan x y = fadd nan x (fneg y) := by
  rw [fsub, ite_eq_right_iff]
  intro h
  rw [fadd, isNaN_fneg, if_pos h]

/-- A sum is a NaN by R73's rules alone. -/
def SumInvalid (x y : Scalar) : Prop :=
  isNaN x = true ∨ isNaN y = true ∨ (isInf x = true ∧ isInf y = true ∧ sign x ≠ sign y)

/-- A product is a NaN by R74's rules alone. -/
def ProductInvalid (x y : Scalar) : Prop :=
  isNaN x = true ∨ isNaN y = true ∨ (isZero x = true ∧ isInf y = true) ∨ (isInf x = true ∧ isZero y = true)

theorem fadd_invalid {nan x y : Scalar} (h : SumInvalid x y) : fadd nan x y = nan := by
  rw [fadd]
  split
  · rfl
  next hnan =>
    obtain ⟨hx, hy⟩ : isNaN x = false ∧ isNaN y = false := by simpa using hnan
    rw [if_pos]
    simpa [SumInvalid, hx, hy, and_assoc] using h

/-- Not a NaN operand and not infinities of opposite signs: an infinity, a zero or a rounded sum. -/
theorem isNaN_fadd_valid {nan x y : Scalar} (h : ¬ SumInvalid x y) : isNaN (fadd nan x y) = false := by
  obtain ⟨hx, hy, hinf⟩ : isNaN x = false ∧ isNaN y = false ∧ ¬ (isInf x && isInf y && sign x != sign y) = true := by
    simpa [SumInvalid] using h
  rw [fadd, if_neg (by simp [hx, hy]), if_neg hinf]
  dsimp only
  split_ifs
  · exact hx
  · exact hy
  · exact hx
  · exact isNaN_zero _
  · exact isNaN_RN _ _ _

theorem fmul_invalid {nan x y : Scalar} (h : ProductInvalid x y) : fmul nan x y = nan := by
  rw [fmul]
  split
  · rfl
  next hnan =>
    obtain ⟨hx, hy⟩ : isNaN x = false ∧ isNaN y = false := by simpa using hnan
    rw [if_pos]
    simpa [ProductInvalid, hx, hy] using h

theorem isNaN_fmul_valid {nan x y : Scalar} (h : ¬ ProductInvalid x y) : isNaN (fmul nan x y) = false := by
  obtain ⟨hx, hy, hzero⟩ : isNaN x = false ∧ isNaN y = false ∧
      ¬ (isZero x && isInf y || isInf x && isZero y) = true := by simpa [ProductInvalid] using h
  rw [fmul, if_neg (by simp [hx, hy]), if_neg hzero]
  dsimp only
  split_ifs
  · exact isNaN_inf _
  · exact isNaN_zero _
  · exact isNaN_RN _ _ _

theorem fdivN_invalid {nan x : Scalar} {l : Nat} (h : isNaN x = true) : fdivN nan x l = nan := by
  rw [fdivN, if_pos h]

theorem isNaN_fdivN_valid {nan x : Scalar} {l : Nat} (h : ¬ isNaN x = true) : isNaN (fdivN nan x l) = false := by
  rw [fdivN, if_neg h]
  split_ifs
  · simpa using h
  · exact isNaN_RN _ _ _

theorem sumInvalid_fneg {x y : Scalar} : SumInvalid x (fneg y) ↔
    isNaN x = true ∨ isNaN y = true ∨ (isInf x = true ∧ isInf y = true ∧ sign x = sign y) := by
  simp [SumInvalid, isNaN_fneg, isInf_fneg, sign_fneg]

/-- The result `z` of an operation is a NaN exactly when the operation is invalid, and is `nan` then. -/
def FollowsPolicy (nan : Scalar) (invalid : Prop) (z : Scalar) : Prop :=
  (isNaN z = true ↔ invalid) ∧ (isNaN z = true → z = nan)

theorem followsPolicy_of_cases {nan z : Scalar} {invalid : Prop} (hnan : isNaN nan = true) (hinv : invalid → z = nan)
    (hval : ¬ invalid → isNaN z = false) : FollowsPolicy nan invalid z := by
  by_cases h : invalid
  · rw [hinv h]
    exact ⟨iff_of_true hnan h, fun _ => rfl⟩
  · have hz : ¬ isNaN z = true := by simp [hval h]
    exact ⟨iff_of_false hz h, fun h' => absurd h' hz⟩

/-! The NaNs that can be drawn (R75). -/

theorem isNaN_nanOf (r : BitVec 53) : isNaN (nanOf r) = true := by
  have hlow : ∀ f, 0 < f → f < 2 ^ 52 → isNaN (withSign (r.getLsbD 52) (infLow + f)) = true := by
    intro f hpos hlt
    rw [isNaN_iff, low_withSign (by rw [infLow]; omega)]
    omega
  rw [nanOf]
  split
  · exact hlow _ (by decide) (by decide)
  next hne => exact hlow _ (Nat.pos_of_ne_zero hne) (Nat.mod_lt _ (Nat.two_pow_pos _))

/-- The sign and the fraction of a NaN draw it. -/
theorem nanOf_sign_frac {z : Scalar} (h : isNaN z = true) :
    nanOf (BitVec.ofNat 53 (2 ^ 52 * (sign z).toNat + frac z)) = z := by
  have hnan := isNaN_iff.1 h
  have hlt := low_lt z
  have hfrac := frac_eq z
  have hbit : (sign z).toNat < 2 := Bool.toNat_lt _
  have hf : frac z < 2 ^ 52 := Nat.mod_lt _ (Nat.two_pow_pos _)
  have hlow : low z = infLow + frac z := by rw [infLow] at hnan ⊢; omega
  have htoNat : (BitVec.ofNat 53 (2 ^ 52 * (sign z).toNat + frac z)).toNat = 2 ^ 52 * (sign z).toNat + frac z :=
    Nat.mod_eq_of_lt (by omega)
  have hsign : (BitVec.ofNat 53 (2 ^ 52 * (sign z).toNat + frac z)).getLsbD 52 = sign z := by
    rw [BitVec.getLsbD, htoNat, Nat.testBit_two_pow_mul_add _ hf]
    cases sign z <;> rfl
  have hfrac' : (2 ^ 52 * (sign z).toNat + frac z) % 2 ^ 52 = frac z := by rw [Nat.mul_add_mod, Nat.mod_eq_of_lt hf]
  simp only [nanOf, htoNat, hsign, hfrac']
  rw [if_neg (by omega), ← hlow, withSign_sign_low]

theorem isNaN_iff_drawn {z : Scalar} : isNaN z = true ↔ ∃ b, nanOf b = z :=
  ⟨fun h => ⟨_, nanOf_sign_frac h⟩, by rintro ⟨b, rfl⟩; exact isNaN_nanOf b⟩

/-- Settles O48: every branch of an operation that is not invalid is an infinity, a zero or a rounding. -/
theorem nanResultsFollowThePolicy : Obligations.NaNResultsFollowThePolicy := by
  refine ⟨fun nan x y l hnan => ?_, fun p n => ⟨rfl, rfl⟩, by decide, fun z => isNaN_iff_drawn⟩
  obtain ⟨hadd, hadd'⟩ := followsPolicy_of_cases hnan (z := fadd nan x y) fadd_invalid isNaN_fadd_valid
  obtain ⟨hsub, hsub'⟩ := followsPolicy_of_cases hnan (z := fadd nan x (fneg y)) fadd_invalid isNaN_fadd_valid
  obtain ⟨hmul, hmul'⟩ := followsPolicy_of_cases hnan (z := fmul nan x y) fmul_invalid isNaN_fmul_valid
  obtain ⟨hdiv, hdiv'⟩ := followsPolicy_of_cases hnan (z := fdivN nan x l) fdivN_invalid isNaN_fdivN_valid
  rw [fsub_eq_fadd]
  exact ⟨hadd, hsub.trans sumInvalid_fneg, hmul, hdiv, hadd', hsub', hmul', hdiv'⟩

end Sys2Proof.Machine.Binary64
end

section
/-!
PROOF. Rounding (`40_numeric_datapath.md` R72). The magnitudes of the patterns grow with their low 63 bits, and in the
binade of `m` and below its top they are the multiples of one unit, among which `roundShift` takes the nearest.
-/

namespace Sys2Proof.Machine.Binary64

/-- The distance of two magnitudes. -/
def gap (a m : Nat) : Nat := ((a : Int) - m).natAbs

/-- `a`, the magnitude of the pattern `n`, may be the rounding of `m` beside `b` (R72): nearer, or as near with `n` even. -/
def Beats (n a b m : Nat) : Prop := gap a m < gap b m ∨ (gap a m = gap b m ∧ n % 2 = 0)

theorem Beats.gap_le {n a b m : Nat} (h : Beats n a b m) : gap a m ≤ gap b m := by
  rcases h with h | ⟨h, -⟩
  · exact h.le
  · exact h.le

/-! The magnitude of a finite pattern (R71), as a function of the low 63 bits. -/

def magLow (n : Nat) : Nat :=
  if n / 2 ^ 52 = 0 then n % 2 ^ 52 else (2 ^ 52 + n % 2 ^ 52) * 2 ^ (n / 2 ^ 52 - 1)

theorem mag_eq (x : Scalar) : mag x = magLow (low x) := by
  rw [mag, magLow, expo_eq, frac_eq]

theorem mag_withSign {n : Nat} (h : n < 2 ^ 63) (sg : Bool) : mag (withSign sg n) = magLow n := by
  rw [mag_eq, low_withSign h]

/-- In a binade, its top included, the magnitudes are the multiples of `2^e`; the subnormals go with the first one. -/
theorem magLow_grid {e q : Nat} (hq : q ≤ 2 ^ 53) (h : e = 0 ∨ 2 ^ 52 ≤ q) : magLow (e * 2 ^ 52 + q) = q * 2 ^ e := by
  rcases lt_or_ge q (2 ^ 52) with hsub | hnorm
  · obtain rfl : e = 0 := by omega
    rw [magLow, if_pos (by omega), Nat.mod_eq_of_lt (by omega)]
    omega
  · rcases hq.lt_or_eq with hlt | rfl
    · rw [magLow, show (e * 2 ^ 52 + q) / 2 ^ 52 = e + 1 by omega, if_neg (by omega), Nat.add_sub_cancel,
        show 2 ^ 52 + (e * 2 ^ 52 + q) % 2 ^ 52 = q by omega]
    · rw [magLow, show (e * 2 ^ 52 + 2 ^ 53) / 2 ^ 52 = e + 2 by omega, if_neg (by omega),
        show 2 ^ 52 + (e * 2 ^ 52 + 2 ^ 53) % 2 ^ 52 = 2 ^ 52 by omega, show e + 2 - 1 = e + 1 by omega, pow_succ]
      ring

theorem exists_grid (n : Nat) : ∃ e q, q < 2 ^ 53 ∧ (e = 0 ∨ 2 ^ 52 ≤ q) ∧ n = e * 2 ^ 52 + q :=
  ⟨n / 2 ^ 52 - 1, n - (n / 2 ^ 52 - 1) * 2 ^ 52, by omega, by omega, by omega⟩

theorem magLow_strictMono : StrictMono magLow := by
  refine strictMono_nat_of_lt_succ fun n => ?_
  obtain ⟨e, q, hq, hnorm, rfl⟩ := exists_grid n
  rw [magLow_grid hq.le hnorm, add_assoc, magLow_grid hq (hnorm.imp_right fun h => h.trans (Nat.le_succ q))]
  exact Nat.mul_lt_mul_of_pos_right (Nat.lt_succ_self q) (Nat.two_pow_pos e)

theorem magLow_zero : magLow 0 = 0 := by decide

/-! Rounding to a multiple of `2^u`. -/

theorem roundShift_bounds (m u : Nat) : m / 2 ^ u ≤ roundShift m u ∧ roundShift m u ≤ m / 2 ^ u + 1 := by
  rw [roundShift]
  split <;> omega

/-- The multiple taken is at most half a unit away, and at half a unit even. -/
theorem roundShift_near (m u : Nat) :
    2 * (roundShift m u * 2 ^ u) ≤ 2 * m + 2 ^ u ∧ 2 * m ≤ 2 * (roundShift m u * 2 ^ u) + 2 ^ u ∧
      (2 * (roundShift m u * 2 ^ u) = 2 * m + 2 ^ u ∨ 2 * m = 2 * (roundShift m u * 2 ^ u) + 2 ^ u →
        roundShift m u % 2 = 0) := by
  have hm := Nat.div_add_mod' m (2 ^ u)
  have hr := Nat.mod_lt m (Nat.two_pow_pos u)
  have hsucc := Nat.succ_mul (m / 2 ^ u) (2 ^ u)
  rw [roundShift]
  split
  next hup => rw [hsucc]; omega
  next hdown => omega

theorem roundShift_beats {m u p : Nat} (h : p ≠ roundShift m u) :
    Beats (roundShift m u) (roundShift m u * 2 ^ u) (p * 2 ^ u) m := by
  obtain ⟨hhigh, hlow, htie⟩ := roundShift_near m u
  have hp : (p + 1) * 2 ^ u ≤ roundShift m u * 2 ^ u ∨ (roundShift m u + 1) * 2 ^ u ≤ p * 2 ^ u :=
    (Nat.lt_or_gt_of_ne h).imp (Nat.mul_le_mul_right _) (Nat.mul_le_mul_right _)
  rw [Nat.succ_mul, Nat.succ_mul] at hp
  rw [Beats, gap, gap]
  omega

theorem roundShift_gap_le (m u p : Nat) : gap (roundShift m u * 2 ^ u) m ≤ gap (p * 2 ^ u) m := by
  rcases eq_or_ne p (roundShift m u) with rfl | h
  · exact le_rfl
  · exact (roundShift_beats h).gap_le

/-! The unit that keeps 53 significant bits. -/

theorem le_dropped (m k : Nat) : k ≤ dropped m k := Nat.le_max_right _ _

theorem lt_of_dropped (m k : Nat) : m < 2 ^ 53 * 2 ^ dropped m k := by
  have hle : Nat.log2 m + 1 ≤ 53 + dropped m k := by rw [dropped]; omega
  rw [← pow_add]
  exact Nat.lt_log2_self.trans_le (Nat.pow_le_pow_right two_pos hle)

theorem le_of_dropped {m k : Nat} (h : dropped m k ≠ k) : 2 ^ 52 * 2 ^ dropped m k ≤ m := by
  have hlog : Nat.log2 m = 52 + dropped m k := by rw [dropped] at h ⊢; omega
  have hm : m ≠ 0 := by rintro rfl; rw [Nat.log2_zero] at hlog; omega
  rw [← pow_add, ← hlog]
  exact Nat.log2_self_le hm

/-- The pattern rounded to, were there no largest one. -/
def roundGrid (m k : Nat) : Nat := (dropped m k - k) * 2 ^ 52 + roundShift m (dropped m k)

theorem roundMag_eq (m k : Nat) : roundMag m k = min (roundGrid m k) infLow := rfl

theorem roundMag_of_lt {m k : Nat} (h : roundMag m k < infLow) : roundMag m k = roundGrid m k := by
  rw [roundMag_eq] at h ⊢
  omega

theorem roundShift_dropped_le (m k : Nat) : roundShift m (dropped m k) ≤ 2 ^ 53 := by
  have hdiv := Nat.div_lt_of_lt_mul ((lt_of_dropped m k).trans_eq (mul_comm _ _))
  exact (roundShift_bounds m _).2.trans hdiv

theorem le_roundShift_dropped (m k : Nat) : dropped m k - k = 0 ∨ 2 ^ 52 ≤ roundShift m (dropped m k) := by
  rcases eq_or_ne (dropped m k) k with h | h
  · exact .inl (by omega)
  · exact .inr (((Nat.le_div_iff_mul_le (Nat.two_pow_pos _)).2 (le_of_dropped h)).trans (roundShift_bounds m _).1)

/-- The magnitudes of the binade of `m` in units of `2^−(1074+k)`. -/
theorem magLow_binade {m k q : Nat} (hq : q ≤ 2 ^ 53) (h : dropped m k - k = 0 ∨ 2 ^ 52 ≤ q) :
    magLow ((dropped m k - k) * 2 ^ 52 + q) * 2 ^ k = q * 2 ^ dropped m k := by
  rw [magLow_grid hq h, mul_assoc, ← pow_add, Nat.sub_add_cancel (le_dropped m k)]

theorem magLow_roundGrid (m k : Nat) :
    magLow (roundGrid m k) * 2 ^ k = roundShift m (dropped m k) * 2 ^ dropped m k :=
  magLow_binade (roundShift_dropped_le m k) (le_roundShift_dropped m k)

/-- R72: below the binade of `m` and above its top every pattern is farther from `m` than the binade's end. -/
theorem roundGrid_beats {m k y : Nat} (hy : y ≠ roundGrid m k) :
    Beats (roundGrid m k) (magLow (roundGrid m k) * 2 ^ k) (magLow y * 2 ^ k) m := by
  have hk := Nat.two_pow_pos k
  rcases lt_or_ge ((dropped m k - k) * 2 ^ 52 + 2 ^ 53) y with habove | htop
  · have hend := roundShift_gap_le m (dropped m k) (2 ^ 53)
    have hm := lt_of_dropped m k
    have hfar := Nat.mul_lt_mul_of_pos_right (magLow_strictMono habove) hk
    rw [magLow_binade le_rfl (.inr (by decide))] at hfar
    rw [magLow_roundGrid]
    refine .inl (hend.trans_lt ?_)
    rw [gap, gap]
    omega
  · by_cases hin : dropped m k - k = 0 ∨ (dropped m k - k) * 2 ^ 52 + 2 ^ 52 ≤ y
    · obtain ⟨p, rfl⟩ := Nat.exists_eq_add_of_le (show (dropped m k - k) * 2 ^ 52 ≤ y by omega)
      have hp : p ≠ roundShift m (dropped m k) := by rintro rfl; exact hy rfl
      have heven : roundGrid m k % 2 = roundShift m (dropped m k) % 2 := by rw [roundGrid]; omega
      rw [magLow_roundGrid, magLow_binade (by omega) (by omega), Beats, heven]
      exact roundShift_beats hp
    · have hend := roundShift_gap_le m (dropped m k) (2 ^ 52)
      have hm := le_of_dropped (m := m) (k := k) (by omega)
      have hbelow : y < (dropped m k - k) * 2 ^ 52 + 2 ^ 52 := by omega
      have hfar := Nat.mul_lt_mul_of_pos_right (magLow_strictMono hbelow) hk
      rw [magLow_binade (by decide) (.inr le_rfl)] at hfar
      rw [magLow_roundGrid]
      refine .inl (hend.trans_lt ?_)
      rw [gap, gap]
      omega

/-! The threshold of the infinity. -/

/-- Rounding reaches an even multiple from half a unit below it on. -/
theorem le_roundShift_iff {m u p : Nat} : 2 * p ≤ roundShift m u ↔ 2 * (2 * p * 2 ^ u) ≤ 2 * m + 2 ^ u := by
  obtain ⟨hhigh, hlow, htie⟩ := roundShift_near m u
  constructor
  · intro h
    have := Nat.mul_le_mul_right (2 ^ u) h
    omega
  · intro h
    by_contra hlt
    have hnext : (roundShift m u + 1) * 2 ^ u ≤ 2 * p * 2 ^ u := Nat.mul_le_mul_right _ (by omega)
    have hu := Nat.two_pow_pos u
    rw [Nat.succ_mul] at hnext
    have heven := htie (by omega)
    have hnext' : (roundShift m u + 2) * 2 ^ u ≤ 2 * p * 2 ^ u := Nat.mul_le_mul_right _ (by omega)
    rw [Nat.add_mul] at hnext'
    omega

/-- `2^1024 − 2^970` in units of `2^−(1074+k)`. -/
theorem threshold_eq (k : Nat) : (2 ^ 2098 - 2 ^ 2044) * 2 ^ k = (2 ^ 54 - 1) * 2 ^ (2044 + k) := by
  rw [show 2098 = 54 + 2044 from rfl, pow_add 2 54, ← Nat.sub_one_mul, mul_assoc, ← pow_add]

theorem infLow_le_roundGrid_iff (m k : Nat) : infLow ≤ roundGrid m k ↔ (2 ^ 54 - 1) * 2 ^ (2044 + k) ≤ m := by
  obtain ⟨e, he⟩ := Nat.exists_eq_add_of_le' (le_dropped m k)
  have hm := lt_of_dropped m k
  have hq := roundShift_dropped_le m k
  have hnorm := le_roundShift_dropped m k
  have hlow := le_of_dropped (m := m) (k := k)
  have hw := Nat.two_pow_pos (2044 + k)
  have hiff := le_roundShift_iff (m := m) (u := dropped m k) (p := 2 ^ 52)
  rw [roundGrid, infLow]
  rcases lt_trichotomy e 2045 with hlt | rfl | hgt
  · have hu : 2 ^ dropped m k ≤ 2 ^ (2044 + k) := Nat.pow_le_pow_right two_pos (by omega)
    omega
  · have hu : 2 ^ dropped m k = 2 * 2 ^ (2044 + k) := by rw [he, ← pow_succ']; congr 1; omega
    rw [hu] at hiff
    omega
  · have hu : 2 ^ (2044 + k + 2) ≤ 2 ^ dropped m k := Nat.pow_le_pow_right two_pos (by omega)
    rw [pow_add] at hu
    omega

theorem roundMag_eq_infLow_iff (m k : Nat) : roundMag m k = infLow ↔ (2 ^ 54 - 1) * 2 ^ (2044 + k) ≤ m := by
  rw [roundMag_eq, ← infLow_le_roundGrid_iff]
  omega

/-- Settles O46: the nearest pattern of the grid without a largest one, cut off at the infinity. -/
theorem roundingIsNearestEven : Obligations.RoundingIsNearestEven := by
  refine fun m k => ⟨by rw [threshold_eq, roundMag_eq_infLow_iff], fun hfin y hy hne => ?_⟩
  rw [mag_withSign (hfin.trans infLow_lt), mag_withSign (hy.trans infLow_lt), roundMag_of_lt hfin]
  exact roundGrid_beats (roundMag_of_lt hfin ▸ hne)

end Sys2Proof.Machine.Binary64
end

section
/-!
PROOF. The arithmetic operations on finite operands as roundings of exact rationals (`40_numeric_datapath.md` R72 to
R74).
-/

namespace Sys2Proof.Machine.Binary64

open Exact (ratValue RoundsTo)

/-- The rational with the given sign and magnitude. -/
def signed (sg : Bool) (q : ℚ) : ℚ := if sg then -q else q

theorem abs_signed (sg : Bool) {q : ℚ} (h : 0 ≤ q) : |signed sg q| = q := by
  cases sg <;> simp [signed, abs_of_nonneg h]

theorem decide_signed_neg (sg : Bool) {q : ℚ} (h : 0 < q) : decide (signed sg q < 0) = sg := by
  cases sg <;> simp [signed, h, h.le]

theorem signed_mul (s t : Bool) (p q : ℚ) : signed s p * signed t q = signed (s != t) (p * q) := by
  cases s <;> cases t <;> simp [signed]

theorem signed_div (s : Bool) (p q : ℚ) : signed s p / q = signed s (p / q) := by
  cases s <;> simp [signed, neg_div]

theorem abs_signed_sub_same (s : Bool) (p q : ℚ) : |signed s p - signed s q| = |p - q| := by
  cases s
  · rfl
  · rw [signed, signed, if_pos rfl, if_pos rfl, neg_sub_neg, abs_sub_comm]

theorem abs_signed_sub_opposite {s t : Bool} (h : s ≠ t) (p q : ℚ) : |signed s p - signed t q| = |p + q| := by
  rw [← Bool.eq_not] at h
  subst h
  cases t
  · rw [signed, signed, Bool.not_false, if_pos rfl, if_neg Bool.false_ne_true, ← abs_neg]; congr 1; ring
  · rw [signed, signed, Bool.not_true, if_neg Bool.false_ne_true, if_pos rfl, sub_neg_eq_add]

/-- A magnitude in units of `2^−(1074+k)`. -/
def scaled (m k : Nat) : ℚ := m / 2 ^ (1074 + k)

theorem scaled_nonneg (m k : Nat) : 0 ≤ scaled m k := by rw [scaled]; positivity

theorem scaled_pos {m : Nat} (h : 0 < m) (k : Nat) : 0 < scaled m k := by
  have : (0 : ℚ) < m := Nat.cast_pos.2 h
  rw [scaled]
  positivity

theorem scaled_lt_iff {m n k : Nat} : scaled m k < scaled n k ↔ m < n := by
  rw [scaled, scaled, div_lt_div_iff_of_pos_right (by positivity), Nat.cast_lt]

theorem scaled_inj {m n k : Nat} : scaled m k = scaled n k ↔ m = n := by
  rw [scaled, scaled, div_left_inj' (by positivity), Nat.cast_inj]

theorem scaled_add (m n k : Nat) : scaled m k + scaled n k = scaled (m + n) k := by
  rw [scaled, scaled, scaled, ← add_div, Nat.cast_add]

theorem abs_scaled_sub (m n k : Nat) : |scaled m k - scaled n k| = scaled (gap m n) k := by
  have hpos : (0 : ℚ) < 2 ^ (1074 + k) := by positivity
  rw [scaled, scaled, scaled, ← sub_div, abs_div, abs_of_pos hpos, gap, Nat.cast_natAbs]
  push_cast
  rfl

theorem scaled_mul_pow (m k : Nat) : scaled (m * 2 ^ k) k = scaled m 0 := by
  rw [scaled, scaled, add_zero, pow_add]
  push_cast
  exact mul_div_mul_right _ _ (by positivity)

/-- The value of a finite pattern (R71). -/
theorem ratValue_eq (x : Scalar) : ratValue x = signed (sign x) (scaled (mag x) 0) := by
  rw [ratValue, value, signed, scaled, add_zero]
  split
  · rw [Int.cast_neg, Int.cast_natCast, neg_div]
  · rw [Int.cast_natCast]

theorem ratValue_of_isZero {x : Scalar} (h : isZero x = true) : ratValue x = 0 := by
  rw [ratValue_eq, mag_eq, isZero_iff.1 h, magLow_zero]
  simp [scaled, signed]

theorem isZero_zero (sg : Bool) : isZero (zero sg) = true := isZero_iff.2 (low_withSign (by decide) sg)

theorem mag_pos {x : Scalar} (h : ¬ isZero x = true) : 0 < mag x := by
  rw [mag_eq, ← magLow_zero]
  exact magLow_strictMono (Nat.pos_of_ne_zero (mt isZero_iff.2 h))

/-! Rounding a rational. -/

theorem threshold_pos : (0 : ℚ) < 2 ^ 1024 - 2 ^ 970 :=
  sub_pos.2 (pow_lt_pow_right₀ one_lt_two (by decide))

theorem threshold_le_scaled {m k : Nat} : (2 : ℚ) ^ 1024 - 2 ^ 970 ≤ scaled m k ↔ roundMag m k = infLow := by
  have hpow : ((2 : ℚ) ^ 1024 - 2 ^ 970) * 2 ^ (1074 + k) = (((2 ^ 54 - 1) * 2 ^ (2044 + k) : Nat) : ℚ) := by
    have hones : ((2 ^ 54 - 1 : Nat) : ℚ) = 2 ^ 54 - 1 := by norm_num
    rw [show (2 : ℚ) ^ 1024 = 2 ^ 54 * 2 ^ 970 from pow_add 2 54 970, show 2044 + k = 970 + (1074 + k) by omega,
      pow_add 2 970, Nat.cast_mul, Nat.cast_mul, hones, Nat.cast_pow, Nat.cast_pow, Nat.cast_ofNat]
    generalize (2 : ℚ) ^ 970 = ulp
    generalize (2 : ℚ) ^ (1074 + k) = unit
    ring
  rw [roundMag_eq_infLow_iff, scaled, le_div_iff₀ (by positivity), hpow, Nat.cast_le]

theorem roundsTo_zero (sg : Bool) : RoundsTo 0 sg (zero sg) :=
  ⟨fun _ => rfl, fun h => absurd h (by rw [abs_zero]; exact threshold_pos.not_ge), fun h => absurd rfl h⟩

/-- How far the pattern `y` is from the number with sign `s` and magnitude `m`, in units of `2^−(1074+k)`. -/
def reach (s : Bool) (m k : Nat) (y : Scalar) : Nat :=
  if sign y = s then gap (mag y * 2 ^ k) m else mag y * 2 ^ k + m

theorem abs_ratValue_sub (s : Bool) (m k : Nat) (y : Scalar) :
    |ratValue y - signed s (scaled m k)| = scaled (reach s m k y) k := by
  rw [ratValue_eq, ← scaled_mul_pow (mag y) k, reach]
  split
  next h => rw [h, abs_signed_sub_same, abs_scaled_sub]
  next h => rw [abs_signed_sub_opposite h, scaled_add, abs_of_nonneg (scaled_nonneg _ _)]

/-- R72 over the patterns of both signs. -/
theorem RN_reach {s : Bool} {m k : Nat} {y : Scalar} (hfin : roundMag m k < infLow)
    (hne : ratValue y ≠ ratValue (RN s m k)) :
    reach s m k (RN s m k) < reach s m k y ∨
      (reach s m k (RN s m k) = reach s m k y ∧ roundMag m k % 2 = 0) := by
  have hlt := hfin.trans infLow_lt
  have hreach : reach s m k (RN s m k) = gap (magLow (roundGrid m k) * 2 ^ k) m := by
    rw [reach, RN, if_pos (sign_withSign hlt s), mag_withSign hlt, roundMag_of_lt hfin]
  rw [hreach, roundMag_of_lt hfin, reach]
  split
  next hs =>
    rw [mag_eq]
    refine roundGrid_beats fun hl => hne (congrArg ratValue (ext_sign_low ?_ ?_))
    · rw [RN, sign_withSign hlt, hs]
    · rw [RN, low_withSign hlt, hl, roundMag_of_lt hfin]
  next hs =>
    have hzero : gap (magLow 0 * 2 ^ k) m = m := by rw [magLow_zero, gap]; omega
    rcases eq_or_ne 0 (roundGrid m k) with h0 | h0
    · have hy : ¬ isZero y = true := fun hy => hne <| by
        rw [ratValue_of_isZero hy, RN, roundMag_of_lt hfin, ← h0]
        exact (ratValue_of_isZero (isZero_zero s)).symm
      have := Nat.mul_pos (mag_pos hy) (Nat.two_pow_pos k)
      rw [← h0, hzero]
      omega
    · have := roundGrid_beats h0
      rw [Beats, hzero] at this
      omega

/-- `RN` rounds as R72 says. -/
theorem roundsTo_RN (s sg : Bool) {m : Nat} (k : Nat) (h : 0 < m) : RoundsTo (signed s (scaled m k)) sg (RN s m k) := by
  have hpos := scaled_pos h k
  rw [RoundsTo, abs_signed s hpos.le, decide_signed_neg s hpos, threshold_le_scaled]
  refine ⟨fun h0 => ?_, fun hinf => by rw [RN, hinf, inf], fun _ hbelow => ?_⟩
  · exact absurd (abs_signed s hpos.le) (by rw [h0, abs_zero]; exact hpos.ne)
  · have hfin : roundMag m k < infLow :=
      (roundMag_le m k).lt_of_ne fun hinf => hbelow.not_ge (threshold_le_scaled.2 hinf)
    have hlt := hfin.trans infLow_lt
    refine ⟨isFinite_iff.2 (by rwa [RN, low_withSign hlt]), sign_withSign hlt s, fun y _ hne => ?_⟩
    have hparity : (RN s m k).toNat % 2 = roundMag m k % 2 := by rw [RN, toNat_withSign hlt]; omega
    rw [abs_ratValue_sub, abs_ratValue_sub, scaled_lt_iff, scaled_inj, hparity]
    exact RN_reach hfin hne

/-- A representable number rounds to itself. -/
theorem RN_mag {x : Scalar} (h : isFinite x = true) : RN (sign x) (mag x) 0 = x := by
  have hgrid : roundGrid (mag x) 0 = low x := by
    by_contra hne
    have := (roundGrid_beats (Ne.symm hne)).gap_le
    rw [pow_zero, mul_one, mul_one, mag_eq, gap, gap, sub_self] at this
    exact hne (magLow_strictMono.injective (by rw [mag_eq]; omega))
  have hlt := isFinite_iff.1 h
  rw [RN, roundMag_eq, hgrid, min_eq_left hlt.le, withSign_sign_low]

/-! The operations on finite operands. -/

theorem fadd_finite {nan x y : Scalar} (hx : isFinite x = true) (hy : isFinite y = true) :
    fadd nan x y = if value x + value y = 0 then (if isZero x && x == y then x else zero false)
      else RN (decide (value x + value y < 0)) (value x + value y).natAbs 0 := by
  simp [fadd, isNaN_of_isFinite hx, isNaN_of_isFinite hy, isInf_of_isFinite hx, isInf_of_isFinite hy]

theorem fmul_finite {nan x y : Scalar} (hx : isFinite x = true) (hy : isFinite y = true) :
    fmul nan x y = if isZero x || isZero y then zero (sign x != sign y)
      else RN (sign x != sign y) (mag x * mag y) 1074 := by
  simp [fmul, isNaN_of_isFinite hx, isNaN_of_isFinite hy, isInf_of_isFinite hx, isInf_of_isFinite hy]

theorem fdivN_finite {nan x : Scalar} (hx : isFinite x = true) (l : Nat) :
    fdivN nan x l = if isZero x then x else RN (sign x) (mag x) l := by
  simp [fdivN, isNaN_of_isFinite hx, isInf_of_isFinite hx]

theorem zero_false : zero false = 0 := rfl

/-- A zero sum is `−0` for two operands `−0` alone (R73). -/
theorem zeroSum_eq (x y : Scalar) : (if isZero x && x == y then x else zero false) =
    zero (decide (x = 0x8000000000000000 ∧ y = 0x8000000000000000)) := by
  by_cases h : isZero x = true ∧ x = y
  · obtain ⟨hx, rfl⟩ := h
    rw [if_pos (by simp [hx]), eq_zero_of_isZero hx]
    cases sign x <;> rfl
  · rw [if_neg (by simpa using h), decide_eq_false]
    rintro ⟨rfl, rfl⟩
    exact h (by decide)

theorem ratValue_fneg (x : Scalar) : ratValue (fneg x) = -ratValue x := by
  rw [ratValue_eq, ratValue_eq, sign_fneg, mag_eq, mag_eq, low_fneg]
  cases sign x <;> simp [signed]

theorem fadd_roundsTo (nan : Scalar) {x y : Scalar} (hx : isFinite x = true) (hy : isFinite y = true) :
    RoundsTo (ratValue x + ratValue y) (decide (x = 0x8000000000000000 ∧ y = 0x8000000000000000)) (fadd nan x y) := by
  have hsum : ratValue x + ratValue y = ((value x + value y : Int) : ℚ) / 2 ^ 1074 := by
    rw [ratValue, ratValue, ← add_div, Int.cast_add]
  rw [fadd_finite hx hy, hsum]
  generalize value x + value y = r
  split
  next h0 =>
    rw [h0, zeroSum_eq, Int.cast_zero, zero_div]
    exact roundsTo_zero _
  next h0 =>
    have hr : (r : ℚ) / 2 ^ 1074 = signed (decide (r < 0)) (scaled r.natAbs 0) := by
      rw [signed, scaled, Nat.cast_natAbs]
      rcases lt_or_ge r 0 with hneg | hnonneg
      · rw [if_pos (decide_eq_true hneg), abs_of_neg hneg, Int.cast_neg, neg_div, neg_neg]
      · rw [if_neg (by simpa using hnonneg), abs_of_nonneg hnonneg]
    rw [hr]
    exact roundsTo_RN _ _ 0 (Int.natAbs_pos.2 h0)

theorem fsub_roundsTo (nan : Scalar) {x y : Scalar} (hx : isFinite x = true) (hy : isFinite y = true) :
    RoundsTo (ratValue x - ratValue y) (decide (x = 0x8000000000000000 ∧ y = 0x0000000000000000)) (fsub nan x y) := by
  have hneg : fneg y = 0x8000000000000000 ↔ y = 0x0000000000000000 :=
    ⟨fun h => by rw [← fneg_fneg y, h]; rfl, by rintro rfl; rfl⟩
  have := fadd_roundsTo nan hx ((isFinite_fneg y).trans hy)
  rw [ratValue_fneg, ← sub_eq_add_neg, ← fsub_eq_fadd] at this
  simpa only [hneg] using this

theorem fmul_roundsTo (nan : Scalar) {x y : Scalar} (hx : isFinite x = true) (hy : isFinite y = true) :
    RoundsTo (ratValue x * ratValue y) (sign x != sign y) (fmul nan x y) := by
  rw [fmul_finite hx hy]
  split
  next h0 =>
    have hprod : ratValue x * ratValue y = 0 := by
      rcases Bool.or_eq_true _ _ ▸ h0 with h | h <;> simp [ratValue_of_isZero h]
    rw [hprod]
    exact roundsTo_zero _
  next h0 =>
    obtain ⟨hx0, hy0⟩ : ¬ isZero x = true ∧ ¬ isZero y = true := by simpa using h0
    have hscaled : scaled (mag x) 0 * scaled (mag y) 0 = scaled (mag x * mag y) 1074 := by
      rw [scaled, scaled, scaled, div_mul_div_comm, ← pow_add, Nat.cast_mul]
    rw [ratValue_eq x, ratValue_eq y, signed_mul, hscaled]
    exact roundsTo_RN _ _ 1074 (Nat.mul_pos (mag_pos hx0) (mag_pos hy0))

theorem fdivN_roundsTo (nan : Scalar) {x : Scalar} (hx : isFinite x = true) (l : Nat) :
    RoundsTo (ratValue x / 2 ^ l) (sign x) (fdivN nan x l) := by
  rw [fdivN_finite hx]
  split
  next h0 =>
    have := roundsTo_zero (sign x)
    rwa [← eq_zero_of_isZero h0, ← zero_div (2 ^ l), ← ratValue_of_isZero h0] at this
  next h0 =>
    have hscaled : scaled (mag x) 0 / 2 ^ l = scaled (mag x) l := by rw [scaled, scaled, div_div, ← pow_add]
    rw [ratValue_eq, signed_div, hscaled]
    exact roundsTo_RN _ _ l (mag_pos h0)

/-- Settles O47: operation by operation. -/
theorem arithmeticIsCorrectlyRounded : Obligations.ArithmeticIsCorrectlyRounded :=
  fun nan _ _ l hx hy =>
    ⟨fadd_roundsTo nan hx hy, fsub_roundsTo nan hx hy, fmul_roundsTo nan hx hy, fdivN_roundsTo nan hx l⟩

theorem value_fneg (x : Scalar) : value (fneg x) = -value x := by
  rw [value, value, sign_fneg, mag_eq, mag_eq, low_fneg]
  cases sign x <;> simp

theorem fsub_self (nan : Scalar) {x : Scalar} (h : isFinite x = true) : fsub nan x x = 0 := by
  have hne : x ≠ fneg x := fun he => by simpa [sign_fneg] using congrArg sign he
  rw [fsub_eq_fadd, fadd_finite h ((isFinite_fneg x).trans h), value_fneg, if_pos (add_neg_cancel _),
    if_neg (by simp [hne]), zero_false]

theorem fdivN_zero (nan : Scalar) {x : Scalar} (h : isNaN x = false) : fdivN nan x 0 = x := by
  rw [fdivN, if_neg (by simp [h])]
  split
  · rfl
  next hfin =>
    have hinf : ¬ isInf x = true := fun hi => hfin (by simp [hi])
    have hnan : ¬ isNaN x = true := by simp [h]
    rw [isInf_iff] at hinf
    rw [isNaN_iff] at hnan
    exact RN_mag (isFinite_iff.2 (by omega))

/-- Settles O49: the sum with the negation cancels, a representable quotient is exact, and negation is on bit 63. -/
theorem exactScalarOperations : Obligations.ExactScalarOperations :=
  fun nan x => ⟨fsub_self nan, fdivN_zero nan, fneg_fneg x, low_fneg x, sign_fneg x⟩

end Sys2Proof.Machine.Binary64
end

section
/-!
PROOF. The entries of the twiddle ROM (`41_twiddle_rom.md` R91 to R94): an entry depends on its fraction of a turn alone,
so the entries at the eighths of a turn are those of the smallest ROM that has them.
-/

namespace Sys2Proof.Machine

/-- The entries `E p j` depend on the fraction `j/2^p` alone (R91). -/
def DependsOnFraction {S : Type} (E : Nat → Nat → Cx S) : Prop := ∀ p j d, E (p + d) (j * 2 ^ d) = E p j

/-- R93: of a ROM whose entries depend on the fraction, stage `s` sees the entries for `LOGNMAX = s`. -/
theorem tw_of_dependsOnFraction {S V : Type} {B : Build S V} {E : Nat → Nat → Cx S} (hE : DependsOnFraction E)
    (hrom : ∀ j, j < 2 ^ (B.logNMax - 1) → B.rom j = E B.logNMax j) {k st : Nat} (h1 : 1 ≤ st) (hst : st ≤ B.logNMax)
    (hk : k < half st) : tw B k st = E st k := by
  obtain ⟨d, hd⟩ := Nat.exists_eq_add_of_le hst
  have hindex : romIndex B k st = k * 2 ^ d := by rw [romIndex, hd, Nat.add_sub_cancel_left]
  have hlt : k * 2 ^ d < 2 ^ (B.logNMax - 1) := by
    rw [hd, Nat.sub_add_comm h1, pow_add]
    exact Nat.mul_lt_mul_of_pos_right hk (Nat.two_pow_pos d)
  rw [tw, hindex, hrom _ hlt, hd, hE]

/-! The exact twiddle factors. -/

theorem exactTwiddle_dependsOnFraction : DependsOnFraction exactTwiddle := by
  intro p j d
  have hangle : 2 * Real.pi * (j * 2 ^ d : Nat) / 2 ^ (p + d) = 2 * Real.pi * j / 2 ^ p := by
    push_cast
    rw [pow_add, ← mul_assoc, mul_div_mul_right _ _ (by positivity)]
  rw [exactTwiddle, hangle, exactTwiddle]

theorem exactTwiddle_zero (p : Nat) : exactTwiddle p 0 = { re := 1, im := 0 } := by
  simp [exactTwiddle]

theorem exactTwiddle_quarter : exactTwiddle 2 1 = { re := 0, im := -1 } := by
  have hangle : 2 * Real.pi * (1 : Nat) / 2 ^ 2 = Real.pi / 2 := by push_cast; ring
  rw [exactTwiddle, hangle, Real.cos_pi_div_two, Real.sin_pi_div_two]

theorem exactTwiddle_eighth : exactTwiddle 3 1 = { re := √2 / 2, im := -(√2 / 2) } := by
  have hangle : 2 * Real.pi * (1 : Nat) / 2 ^ 3 = Real.pi / 4 := by push_cast; ring
  rw [exactTwiddle, hangle, Real.cos_pi_div_four, Real.sin_pi_div_four]

theorem exactTwiddle_three_eighths : exactTwiddle 3 3 = { re := -(√2 / 2), im := -(√2 / 2) } := by
  have hangle : 2 * Real.pi * (3 : Nat) / 2 ^ 3 = Real.pi - Real.pi / 4 := by push_cast; ring
  rw [exactTwiddle, hangle, Real.cos_pi_sub, Real.sin_pi_sub, Real.cos_pi_div_four, Real.sin_pi_div_four]

/-! The computed entries of `NUM_B64`. -/

theorem angleFix_dependsOnFraction (p j d : Nat) : angleFix (p + d) (j * 2 ^ d) = angleFix p j := by
  rw [angleFix, angleFix, pow_add, ← mul_assoc, Nat.mul_div_mul_right _ _ (Nat.two_pow_pos d)]

theorem cosFix_dependsOnFraction (p j d : Nat) : cosFix (p + d) (j * 2 ^ d) = cosFix p j := by
  rw [cosFix, cosFix, angleFix_dependsOnFraction]

theorem sinFix_dependsOnFraction (p j d : Nat) : sinFix (p + d) (j * 2 ^ d) = sinFix p j := by
  rw [sinFix, sinFix, angleFix_dependsOnFraction]

theorem two_pow_sub_scale {p c : Nat} (h : c ≤ p) (d : Nat) : 2 ^ (p + d - c) = 2 ^ (p - c) * 2 ^ d := by
  rw [← pow_add, Nat.sub_add_comm h]

theorem quarterTurn_dependsOnFraction {p : Nat} (h : 3 ≤ p) (j d : Nat) :
    quarterTurn (p + d) (j * 2 ^ d) = quarterTurn p j := by
  simp only [quarterTurn, two_pow_sub_scale h, two_pow_sub_scale (Nat.le_of_succ_le h), ← Nat.sub_mul,
    cosFix_dependsOnFraction, sinFix_dependsOnFraction, Nat.mul_le_mul_right_iff (Nat.two_pow_pos d)]

theorem computedEntry_dependsOnFraction {p : Nat} (h : 3 ≤ p) (j d : Nat) :
    computedEntry (p + d) (j * 2 ^ d) = computedEntry p j := by
  have h2 : 2 ≤ p := Nat.le_of_succ_le h
  simp only [computedEntry, two_pow_sub_scale h2, two_pow_sub_scale (Nat.le_of_succ_le h2), ← Nat.sub_mul,
    quarterTurn_dependsOnFraction h, Nat.mul_le_mul_right_iff (Nat.two_pow_pos d)]

/-! The ROM of `NUM_B64`: the printed table has the fractions `i/2^10` (R160). -/

theorem romB64_of_table {p j i : Nat} (h : j * 2 ^ 10 = 2 ^ p * i) : romB64 p j = tableRow i := by
  rcases le_or_gt p 10 with hp | hp
  · have hi : j * 2 ^ (10 - p) = i := by
      rw [← Nat.sub_add_cancel hp, pow_add, ← mul_assoc, mul_comm (2 ^ p)] at h
      exact Nat.eq_of_mul_eq_mul_right (Nat.two_pow_pos p) h
    rw [romB64, if_pos hp, hi]
  · have hj : j = 2 ^ (p - 10) * i := by
      rw [← Nat.sub_add_cancel hp.le, pow_add, mul_right_comm] at h
      exact Nat.eq_of_mul_eq_mul_right (Nat.two_pow_pos 10) h
    rw [romB64, if_neg hp.not_ge, hj, if_pos (Nat.mul_mod_right _ _), Nat.mul_div_cancel_left _ (Nat.two_pow_pos _)]

/-- An entry the printed table lacks belongs to a ROM deeper than it. -/
theorem lt_of_not_in_table {p j : Nat} (h : ¬ 2 ^ p ∣ j * 2 ^ 10) : 10 < p :=
  lt_of_not_ge fun hp => h (Dvd.dvd.mul_left (pow_dvd_pow 2 hp) j)

theorem romB64_of_not_in_table {p j : Nat} (h : ¬ 2 ^ p ∣ j * 2 ^ 10) : romB64 p j = computedEntry p j := by
  have hp := lt_of_not_in_table h
  have hmod : ¬ j % 2 ^ (p - 10) = 0 := fun hj => h <| by
    rw [← Nat.sub_add_cancel hp.le, pow_add]
    exact Nat.mul_dvd_mul_right (Nat.dvd_of_mod_eq_zero hj) _
  rw [romB64, if_neg hp.not_ge, if_neg hmod]

theorem romB64_dependsOnFraction : DependsOnFraction romB64 := by
  intro p j d
  have hscale : j * 2 ^ d * 2 ^ 10 = j * 2 ^ 10 * 2 ^ d := mul_right_comm _ _ _
  by_cases h : 2 ^ p ∣ j * 2 ^ 10
  · obtain ⟨i, hi⟩ := h
    have hi' : j * 2 ^ d * 2 ^ 10 = 2 ^ (p + d) * i := by rw [hscale, hi, pow_add, mul_right_comm]
    rw [romB64_of_table hi, romB64_of_table hi']
  · have h' : ¬ 2 ^ (p + d) ∣ j * 2 ^ d * 2 ^ 10 := by
      rwa [hscale, pow_add, Nat.mul_dvd_mul_iff_right (Nat.two_pow_pos d)]
    have hp := lt_of_not_in_table h
    rw [romB64_of_not_in_table h, romB64_of_not_in_table h', computedEntry_dependsOnFraction (by omega)]

/-! The entries at the eighths of a turn. -/

/-- R94's entries, with the scalars that stand for one, zero, minus one and the roots of a half. -/
def HasExactEntries {S V : Type} (B : Build S V) (one zero minusOne root minusRoot : S) : Prop :=
  B.rom 0 = { re := one, im := zero } ∧
  (2 ≤ B.logNMax → B.rom (B.nmax / 4) = { re := zero, im := minusOne }) ∧
  (3 ≤ B.logNMax → B.rom (B.nmax / 8) = { re := root, im := minusRoot } ∧
    B.rom (3 * B.nmax / 8) = { re := minusRoot, im := minusRoot })

/-- The index `k·NMAX/2^s` is that of the twiddle at position `k` of stage `s` (R92). -/
theorem rom_eq_tw {S V : Type} (B : Build S V) (k : Nat) {st : Nat} (h : st ≤ B.logNMax) :
    B.rom (k * B.nmax / 2 ^ st) = tw B k st := by
  rw [tw, romIndex, Build.nmax, Nat.mul_div_assoc _ (pow_dvd_pow 2 h), Nat.pow_div h two_pos]

theorem hasExactEntries_of_dependsOnFraction {S V : Type} {B : Build S V} {E : Nat → Nat → Cx S}
    (hE : DependsOnFraction E) (hrom : ∀ j, j < 2 ^ (B.logNMax - 1) → B.rom j = E B.logNMax j)
    {one zero minusOne root minusRoot : S} (hzero : E 1 0 = { re := one, im := zero })
    (hquarter : E 2 1 = { re := zero, im := minusOne }) (heighth : E 3 1 = { re := root, im := minusRoot })
    (hthree : E 3 3 = { re := minusRoot, im := minusRoot }) :
    HasExactEntries B one zero minusOne root minusRoot := by
  have hentry : ∀ k st, 1 ≤ st → st ≤ B.logNMax → k < half st → B.rom (k * B.nmax / 2 ^ st) = E st k :=
    fun k st h1 hst hk => (rom_eq_tw B k hst).trans (tw_of_dependsOnFraction hE hrom h1 hst hk)
  refine ⟨?_, fun h2 => ?_, fun h3 => ⟨?_, ?_⟩⟩
  · simpa [hzero] using hentry 0 1 le_rfl (Nat.le_add_left 1 _) (by decide)
  · simpa [hquarter] using hentry 1 2 (by decide) h2 (by decide)
  · simpa [heighth] using hentry 1 3 (by decide) h3 (by decide)
  · simpa [hthree] using hentry 3 3 (by decide) h3 (by decide)

theorem hasExactEntries_b64 {V : Type} {B : Build Scalar V}
    (hrom : ∀ j, j < 2 ^ (B.logNMax - 1) → B.rom j = romB64 B.logNMax j) :
    HasExactEntries B 0x3FF0000000000000 0x0000000000000000 0xBFF0000000000000 0x3FE6A09E667F3BCD
      0xBFE6A09E667F3BCD :=
  hasExactEntries_of_dependsOnFraction romB64_dependsOnFraction hrom rfl rfl rfl rfl

theorem hasExactEntries_exact {V : Type} {B : Build ℝ V}
    (hrom : ∀ j, j < 2 ^ (B.logNMax - 1) → B.rom j = exactTwiddle B.logNMax j) :
    HasExactEntries B 1 0 (-1) (√2 / 2) (-(√2 / 2)) :=
  hasExactEntries_of_dependsOnFraction exactTwiddle_dependsOnFraction hrom (exactTwiddle_zero 1) exactTwiddle_quarter
    exactTwiddle_eighth exactTwiddle_three_eighths

/-- The roundings of the exact twiddle factors. -/
noncomputable def roundedTwiddle {S : Type} (RN : ℝ → S) (p j : Nat) : Cx S where
  re := RN (exactTwiddle p j).re
  im := RN (exactTwiddle p j).im

theorem roundedTwiddle_dependsOnFraction {S : Type} (RN : ℝ → S) : DependsOnFraction (roundedTwiddle RN) := by
  intro p j d
  rw [roundedTwiddle, exactTwiddle_dependsOnFraction, roundedTwiddle]

theorem hasExactEntries_rounds {S V : Type} {B : Build S V} {RN : ℝ → S}
    (hrom : ∀ j, j < 2 ^ (B.logNMax - 1) → B.rom j = roundedTwiddle RN B.logNMax j) :
    HasExactEntries B (RN 1) (RN 0) (RN (-1)) (RN (√2 / 2)) (RN (-(√2 / 2))) :=
  hasExactEntries_of_dependsOnFraction (roundedTwiddle_dependsOnFraction RN) hrom
    (by rw [roundedTwiddle, exactTwiddle_zero]) (by rw [roundedTwiddle, exactTwiddle_quarter])
    (by rw [roundedTwiddle, exactTwiddle_eighth]) (by rw [roundedTwiddle, exactTwiddle_three_eighths])

/-- R94 by what makes a ROM legal under each kind of record. -/
theorem exists_hasExactEntries {S V : Type} (B : Build S V) :
    ∃ one zero minusOne root minusRoot, HasExactEntries B one zero minusOne root minusRoot := by
  obtain ⟨p, N, rom, legal, freeWord⟩ := B
  cases N with
  | b64 policy => exact ⟨_, _, _, _, _, hasExactEntries_b64 legal⟩
  | record R other =>
    obtain ⟨RN, hrom⟩ := legal
    exact ⟨_, _, _, _, _, hasExactEntries_rounds hrom⟩
  | exact ops is => exact ⟨_, _, _, _, _, hasExactEntries_exact legal⟩

theorem formatRom_rounds {f : NumFormat} {ws : Nat} (h : f = .other ws) (p : Fin 21) :
    RomRounds (p.val + 1) (formatRom f (p.val + 1)) := by
  subst h
  exact otherEntry_rounds ws p

/-- Settles O54: the fractions 0, 1/4, 1/8 and 3/8, record by record. -/
theorem exactTwiddleEntries : Obligations.ExactTwiddleEntries :=
  ⟨fun _ _ => hasExactEntries_b64 fun _ _ => rfl, fun _ _ => hasExactEntries_exact fun _ _ => rfl,
    fun _ _ B => exists_hasExactEntries B, fun c _ h => formatRom_rounds h c.logNMaxPred⟩

/-- Settles O55: the entries of both records depend on the fraction alone. -/
theorem twiddlesDoNotDependOnTheDepth : Obligations.TwiddlesDoNotDependOnTheDepth := by
  intro p q k st h1 hp hq hk
  have hb64 : ∀ (r : Fin 21) (policy : NanPolicy), st ≤ r.val + 1 →
      tw (build (Config.b64 r policy)) k st = romB64 st k := fun r policy hr =>
    tw_of_dependsOnFraction (B := build (Config.b64 r policy)) romB64_dependsOnFraction (fun _ _ => rfl) h1 hr hk
  exact ⟨fun policy policy' => (hb64 p policy hp).trans (hb64 q policy' hq).symm, fun freeWord =>
    tw_of_dependsOnFraction (B := Exact.build p freeWord) exactTwiddle_dependsOnFraction (fun _ _ => rfl) h1 hp hk⟩

end Sys2Proof.Machine
end

section
/-!
PROOF. The symmetries and the signs of the twiddle ROM (`41_twiddle_rom.md` R95): the two reflections hold for the printed
table, for the computed entries and for the exact factors, and carry the sign of `re` in the first quarter turn to every
other component.
-/

namespace Sys2Proof.Machine

open Binary64

/-- The reflections of entry `j` in the eighth and in the quarter turn, `q` being the index of the quarter turn. -/
abbrev Reflects {S : Type} (neg : S → S) (rom : Nat → Cx S) (q j : Nat) : Prop :=
  (rom (q - j)).re = neg (rom j).im ∧ (rom (q - j)).im = neg (rom j).re ∧
  (rom (q + j)).re = neg (rom (q - j)).re ∧ (rom (q + j)).im = (rom (q - j)).im

/-- R95's signs of entry `j`, whose components stand for the numbers `value`; `q` is the index of the quarter turn. -/
def HasSigns {S K : Type} [Zero K] [Preorder K] (value : S → K) (rom : Nat → Cx S) (q j : Nat) : Prop :=
  (j < q → 0 < value (rom j).re) ∧ (q < j → value (rom j).re < 0) ∧ (0 < j → value (rom j).im < 0)

/-- The first entry of the smallest ROM, which has no quarter turn. -/
theorem hasSigns_zero {S K : Type} [Zero K] [Preorder K] (value : S → K) (rom : Nat → Cx S) :
    HasSigns value rom 0 0 :=
  ⟨fun h => absurd h (lt_irrefl 0), fun h => absurd h (lt_irrefl 0), fun h => absurd h (lt_irrefl 0)⟩

/-! Positive finite patterns. -/

/-- A finite pattern of a positive number. -/
abbrev Positive (x : Scalar) : Prop := sign x = false ∧ 0 < low x ∧ low x < infLow

theorem Positive.isFinite {x : Scalar} (h : Positive x) : isFinite x = true := isFinite_iff.2 h.2.2

theorem Positive.ratValue_pos {x : Scalar} (h : Positive x) : 0 < Exact.ratValue x := by
  obtain ⟨hsign, hlow, -⟩ := h
  have hmag : 0 < mag x := mag_pos fun hz => hlow.ne' (isZero_iff.1 hz)
  rw [ratValue_eq, hsign]
  exact scaled_pos hmag 0

theorem isFinite_of_positive_fneg {x : Scalar} (h : Positive (fneg x)) : isFinite x = true :=
  (isFinite_fneg x).symm.trans h.isFinite

theorem ratValue_neg_of_positive_fneg {x : Scalar} (h : Positive (fneg x)) : Exact.ratValue x < 0 := by
  have := h.ratValue_pos
  rw [ratValue_fneg] at this
  exact neg_pos.1 this

/-- A multiple of the smallest subnormal does not round to zero. -/
theorem roundMag_pos {m : Nat} (h : 0 < m) : 0 < roundMag m 0 := by
  have hgrid : roundGrid m 0 ≠ 0 := fun h0 => by
    have := (roundGrid_beats (m := m) (k := 0) (y := 1) (by omega)).gap_le
    rw [h0, magLow_zero, show magLow 1 = 1 by decide, gap, gap] at this
    omega
  rw [roundMag_eq, infLow]
  omega

/-- Fixed-point numbers up to one round to positive finite patterns. -/
theorem positive_roundFix {v : Nat} (hpos : 0 < v) (hle : v ≤ 2 ^ fixBits) : Positive (roundFix v) := by
  have hone : 2 ^ fixBits * 2 ^ (1074 - fixBits) ≤ 2 ^ (2044 + 0) := by
    rw [← pow_add, Nat.add_sub_cancel' (show fixBits ≤ 1074 by decide)]
    exact pow_le_pow_right₀ one_le_two (by decide)
  have hbelow : v * 2 ^ (1074 - fixBits) < (2 ^ 54 - 1) * 2 ^ (2044 + 0) :=
    ((Nat.mul_le_mul_right _ hle).trans hone).trans_lt (lt_mul_of_one_lt_left (pow_pos two_pos _) (by decide))
  have hfin : roundMag (v * 2 ^ (1074 - fixBits)) 0 < infLow :=
    (roundMag_le _ _).lt_of_ne fun hinf => hbelow.not_ge ((roundMag_eq_infLow_iff _ _).1 hinf)
  have hlt := hfin.trans infLow_lt
  rw [Positive, roundFix, RN, sign_withSign hlt, low_withSign hlt]
  exact ⟨rfl, roundMag_pos (Nat.mul_pos hpos (Nat.two_pow_pos _)), hfin⟩

/-! The fixed-point sine and cosine of an angle up to an eighth of a turn. -/

theorem taylor_le (fuel k t xx : Nat) : taylor fuel k t xx ≤ t := by
  cases fuel with
  | zero => exact Nat.zero_le t
  | succ fuel => exact Nat.sub_le t _

/-- `x·y` in fixed point is at most `x` for `y` at most one. -/
theorem fixMul_le {x y : Nat} (h : y ≤ 2 ^ fixBits) : x * y / 2 ^ fixBits ≤ x :=
  Nat.div_le_of_le_mul ((Nat.mul_le_mul_left x h).trans_eq (mul_comm _ _))

/-- The second term of the sum is at most half the first. -/
theorem taylor_pos {fuel k t xx : Nat} (hxx : xx ≤ 2 ^ fixBits) (ht : 0 < t) : 0 < taylor (fuel + 1) k t xx := by
  have hden : 2 ≤ (k + 1) * (k + 2) := Nat.mul_le_mul (Nat.le_add_left 1 k) (Nat.le_add_left 2 k)
  have hnext : taylor fuel (k + 2) (t * xx / 2 ^ fixBits / ((k + 1) * (k + 2))) xx < t :=
    calc _ ≤ t * xx / 2 ^ fixBits / ((k + 1) * (k + 2)) := taylor_le _ _ _ _
      _ ≤ t / 2 := Nat.div_le_div (fixMul_le hxx) hden two_ne_zero
      _ < t := Nat.div_lt_self ht one_lt_two
  rw [taylor]
  exact Nat.sub_pos_of_lt hnext

theorem two_pow_le_two_mul_piFix {p : Nat} (hp : p ≤ 21) : 2 ^ p ≤ 2 * piFix :=
  (Nat.pow_le_pow_right two_pos hp).trans (by decide +kernel)

theorem angleFix_pos {p j : Nat} (hp : p ≤ 21) (h0 : 0 < j) : 0 < angleFix p j :=
  Nat.div_pos ((two_pow_le_two_mul_piFix hp).trans (Nat.le_mul_of_pos_right _ h0)) (Nat.two_pow_pos p)

/-- An eighth of a turn is less than one. -/
theorem angleFix_le {m j : Nat} (hj : j ≤ 2 ^ m) : angleFix (m + 3) j ≤ 2 ^ fixBits := by
  have hpi : 2 * piFix ≤ 2 ^ 3 * 2 ^ fixBits := by decide +kernel
  refine Nat.div_le_of_le_mul ((Nat.mul_le_mul hpi hj).trans_eq ?_)
  rw [pow_add]
  ring

theorem positive_sinFix {m j : Nat} (hm : m + 3 ≤ 21) (h0 : 0 < j) (hj : j ≤ 2 ^ m) :
    Positive (roundFix (sinFix (m + 3) j)) := by
  have hangle := angleFix_le hj
  exact positive_roundFix (taylor_pos ((fixMul_le hangle).trans hangle) (angleFix_pos hm h0))
    ((taylor_le _ _ _ _).trans hangle)

theorem positive_cosFix {m j : Nat} (hj : j ≤ 2 ^ m) : Positive (roundFix (cosFix (m + 3) j)) := by
  have hangle := angleFix_le hj
  exact positive_roundFix (taylor_pos ((fixMul_le hangle).trans hangle) (Nat.two_pow_pos _)) (taylor_le _ _ _ _)

/-! The computed entries, with `LOGNMAX = m + 3`. -/

theorem quarterTurn_of_le {m j : Nat} (h : j ≤ 2 ^ m) :
    quarterTurn (m + 3) j = (roundFix (cosFix (m + 3) j), roundFix (sinFix (m + 3) j)) := if_pos h

theorem quarterTurn_of_gt {m j : Nat} (h : 2 ^ m < j) : quarterTurn (m + 3) j =
    (roundFix (sinFix (m + 3) (2 ^ (m + 1) - j)), roundFix (cosFix (m + 3) (2 ^ (m + 1) - j))) := if_neg h.not_ge

/-- Away from the eighth turn itself the reflection swaps sine and cosine. -/
theorem quarterTurn_reflect {m j : Nat} (hj : j ≤ 2 ^ (m + 1)) (hne : j ≠ 2 ^ m) :
    quarterTurn (m + 3) (2 ^ (m + 1) - j) = (quarterTurn (m + 3) j).swap := by
  have hq : 2 ^ (m + 1) = 2 * 2 ^ m := pow_succ' 2 m
  rcases Nat.lt_or_gt_of_ne hne with hlt | hgt
  · rw [quarterTurn_of_le hlt.le, quarterTurn_of_gt (by omega), Nat.sub_sub_self hj, Prod.swap_prod_mk]
  · rw [quarterTurn_of_gt hgt, quarterTurn_of_le (by omega), Prod.swap_prod_mk]

theorem positive_quarterTurn_fst {m j : Nat} (hm : m + 3 ≤ 21) (hj : j < 2 ^ (m + 1)) :
    Positive (quarterTurn (m + 3) j).1 := by
  have hq : 2 ^ (m + 1) = 2 * 2 ^ m := pow_succ' 2 m
  rcases le_or_gt j (2 ^ m) with hle | hgt
  · rw [quarterTurn_of_le hle]
    exact positive_cosFix hle
  · rw [quarterTurn_of_gt hgt]
    exact positive_sinFix hm (by omega) (by omega)

theorem computedEntry_of_le {m j : Nat} (h : j ≤ 2 ^ (m + 1)) : computedEntry (m + 3) j =
    { re := (quarterTurn (m + 3) j).1, im := fneg (quarterTurn (m + 3) j).2 } := if_pos h

theorem computedEntry_of_gt {m j : Nat} (h : 2 ^ (m + 1) < j) : computedEntry (m + 3) j =
    { re := fneg (quarterTurn (m + 3) (2 ^ (m + 2) - j)).1
      im := fneg (quarterTurn (m + 3) (2 ^ (m + 2) - j)).2 } := if_neg h.not_ge

theorem computedEntry_reflects {m j : Nat} (h0 : 0 < j) (hj : j < 2 ^ (m + 1)) (hne : j ≠ 2 ^ m) :
    Reflects fneg (computedEntry (m + 3)) (2 ^ (m + 1)) j := by
  have hback : 2 ^ (m + 2) - (2 ^ (m + 1) + j) = 2 ^ (m + 1) - j := by rw [pow_succ' 2 (m + 1)]; omega
  rw [Reflects, computedEntry_of_le hj.le, computedEntry_of_le (Nat.sub_le _ _),
    computedEntry_of_gt (Nat.lt_add_of_pos_right h0), hback, quarterTurn_reflect hj.le hne]
  exact ⟨(fneg_fneg _).symm, rfl, rfl, rfl⟩

/-! The printed table (R160). -/

theorem tableRow_reflects : ∀ i < 256, 0 < i → Reflects fneg tableRow 256 i := by decide +kernel

theorem positive_tableRow : ∀ i < 256, Positive (tableRow i).re := by decide +kernel

/-! The ROM of `NUM_B64`, with `LOGNMAX = m + 2`. -/

/-- The row of an entry before the quarter turn. -/
theorem row_lt {m i j : Nat} (hj : j < 2 ^ m) (h : j * 2 ^ 10 = 2 ^ (m + 2) * i) : i < 256 := by
  rw [pow_add, mul_right_comm] at h
  refine Nat.lt_of_mul_lt_mul_left (a := 2 ^ m) ?_
  omega

theorem romB64_reflects {m j : Nat} (h0 : 0 < j) (hj : j < 2 ^ m) : Reflects fneg (romB64 (m + 2)) (2 ^ m) j := by
  have hquarter : 2 ^ m * 2 ^ 10 = 2 ^ (m + 2) * 256 := by rw [pow_add]; ring
  have hbefore : (2 ^ m - j) * 2 ^ 10 = 2 ^ (m + 2) * 256 - j * 2 ^ 10 := by rw [Nat.sub_mul, hquarter]
  have hbeyond : (2 ^ m + j) * 2 ^ 10 = 2 ^ (m + 2) * 256 + j * 2 ^ 10 := by rw [Nat.add_mul, hquarter]
  by_cases h : 2 ^ (m + 2) ∣ j * 2 ^ 10
  · obtain ⟨i, hi⟩ := h
    have hi0 : 0 < i := Nat.pos_of_ne_zero fun h => by rw [h] at hi; omega
    rw [hi, ← Nat.mul_sub] at hbefore
    rw [hi, ← Nat.mul_add] at hbeyond
    rw [Reflects, romB64_of_table hi, romB64_of_table hbefore, romB64_of_table hbeyond]
    exact tableRow_reflects i (row_lt hj hi) hi0
  · have hbefore' : ¬ 2 ^ (m + 2) ∣ (2 ^ m - j) * 2 ^ 10 := by
      rw [hbefore, Nat.dvd_sub_iff_right (by omega) (Nat.dvd_mul_right _ 256)]
      exact h
    have hbeyond' : ¬ 2 ^ (m + 2) ∣ (2 ^ m + j) * 2 ^ 10 := by
      rw [hbeyond, Nat.dvd_add_right (Nat.dvd_mul_right _ 256)]
      exact h
    rw [Reflects, romB64_of_not_in_table h, romB64_of_not_in_table hbefore', romB64_of_not_in_table hbeyond']
    obtain ⟨n, rfl⟩ : ∃ n, m = n + 1 := Nat.exists_eq_add_one.2 (by have := lt_of_not_in_table h; omega)
    refine computedEntry_reflects h0 hj fun he => h ⟨128, ?_⟩
    rw [he, pow_add]
    ring

theorem positive_romB64_re {m j : Nat} (hm : m + 2 ≤ 21) (hj : j < 2 ^ m) : Positive (romB64 (m + 2) j).re := by
  by_cases h : 2 ^ (m + 2) ∣ j * 2 ^ 10
  · obtain ⟨i, hi⟩ := h
    rw [romB64_of_table hi]
    exact positive_tableRow i (row_lt hj hi)
  · obtain ⟨n, rfl⟩ : ∃ n, m = n + 1 := Nat.exists_eq_add_one.2 (by have := lt_of_not_in_table h; omega)
    rw [romB64_of_not_in_table h, computedEntry_of_le hj.le]
    exact positive_quarterTurn_fst hm hj

theorem romB64_zero (p : Nat) : romB64 p 0 = { re := 0x3FF0000000000000, im := 0x0000000000000000 } :=
  romB64_of_table (i := 0) (Nat.zero_mul _)

theorem romB64_quarter (m : Nat) :
    romB64 (m + 2) (2 ^ m) = { re := 0x0000000000000000, im := 0xBFF0000000000000 } :=
  romB64_of_table (i := 256) (by rw [pow_add]; ring)

/-- R95: `re` beyond the quarter turn is the negation of an `re` before it. -/
theorem negative_romB64_re {m j : Nat} (hm : m + 2 ≤ 21) (hlt : 2 ^ m < j) (hj : j < 2 ^ (m + 1)) :
    Positive (fneg (romB64 (m + 2) j).re) := by
  rw [pow_succ'] at hj
  obtain ⟨-, -, hre, -⟩ := romB64_reflects (m := m) (j := j - 2 ^ m) (by omega) (by omega)
  rw [Nat.add_sub_cancel' hlt.le] at hre
  rw [hre, fneg_fneg]
  exact positive_romB64_re hm (by omega)

/-- R95: every `im` but the first is the negation of an `re` before the quarter turn. -/
theorem negative_romB64_im {m j : Nat} (hm : m + 2 ≤ 21) (h0 : 0 < j) (hj : j < 2 ^ (m + 1)) :
    Positive (fneg (romB64 (m + 2) j).im) := by
  rw [pow_succ'] at hj
  rcases lt_trichotomy j (2 ^ m) with hlt | rfl | hgt
  · obtain ⟨hre, -⟩ := romB64_reflects h0 hlt
    rw [← hre]
    exact positive_romB64_re hm (by omega)
  · rw [romB64_quarter]
    decide
  · obtain ⟨-, him, -, him'⟩ := romB64_reflects (m := m) (j := j - 2 ^ m) (by omega) (by omega)
    rw [Nat.add_sub_cancel' hgt.le] at him'
    rw [him', him, fneg_fneg]
    exact positive_romB64_re hm (by omega)

theorem isFinite_romB64_re {m j : Nat} (hm : m + 2 ≤ 21) (hj : j < 2 ^ (m + 1)) :
    isFinite (romB64 (m + 2) j).re = true := by
  rcases lt_trichotomy j (2 ^ m) with hlt | rfl | hgt
  · exact (positive_romB64_re hm hlt).isFinite
  · rw [romB64_quarter]
    decide
  · exact isFinite_of_positive_fneg (negative_romB64_re hm hgt hj)

theorem isFinite_romB64_im {m j : Nat} (hm : m + 2 ≤ 21) (hj : j < 2 ^ (m + 1)) :
    isFinite (romB64 (m + 2) j).im = true := by
  rcases Nat.eq_zero_or_pos j with rfl | h0
  · rw [romB64_zero]
    decide
  · exact isFinite_of_positive_fneg (negative_romB64_im hm h0 hj)

theorem romB64_hasSigns {m j : Nat} (hm : m + 2 ≤ 21) (hj : j < 2 ^ (m + 1)) :
    HasSigns Exact.ratValue (romB64 (m + 2)) (2 ^ m) j :=
  ⟨fun hlt => (positive_romB64_re hm hlt).ratValue_pos,
    fun hgt => ratValue_neg_of_positive_fneg (negative_romB64_re hm hgt hj),
    fun h0 => ratValue_neg_of_positive_fneg (negative_romB64_im hm h0 hj)⟩

/-! The ROM of `NUM_EXACT`, with `LOGNMAX = m + 2`. -/

/-- The angle as a part of the quarter turn. -/
theorem turn_eq (m j : Nat) : 2 * Real.pi * j / 2 ^ (m + 2) = Real.pi / 2 * (j / 2 ^ m) := by
  rw [pow_add]
  ring

theorem exactTwiddle_reflects {m j : Nat} (hj : j < 2 ^ m) :
    Reflects (fun x => -x) (exactTwiddle (m + 2)) (2 ^ m) j := by
  have hbefore : 2 * Real.pi * (2 ^ m - j : Nat) / 2 ^ (m + 2) = Real.pi / 2 - 2 * Real.pi * j / 2 ^ (m + 2) := by
    rw [Nat.cast_sub hj.le, turn_eq, pow_add]
    push_cast
    field_simp
  have hbeyond : 2 * Real.pi * (2 ^ m + j : Nat) / 2 ^ (m + 2) = 2 * Real.pi * j / 2 ^ (m + 2) + Real.pi / 2 := by
    push_cast
    field_simp
    ring
  simp only [Reflects, exactTwiddle, hbefore, hbeyond, Real.cos_pi_div_two_sub, Real.sin_pi_div_two_sub,
    Real.cos_add_pi_div_two, Real.sin_add_pi_div_two, neg_neg, and_self]

theorem exactTwiddle_hasSigns {m j : Nat} (hj : j < 2 ^ (m + 1)) :
    HasSigns (fun x => x) (exactTwiddle (m + 2)) (2 ^ m) j := by
  have hpi := Real.pi_pos
  have hq : (0 : ℝ) < 2 ^ m := by positivity
  have hturn : (j : ℝ) / 2 ^ m < 2 := by
    rw [div_lt_iff₀ hq]
    exact_mod_cast hj.trans_eq (pow_succ' 2 m)
  rw [HasSigns, exactTwiddle, turn_eq]
  refine ⟨fun hlt => ?_, fun hgt => ?_, fun h0 => neg_lt_zero.2 ?_⟩
  · have hpart : (j : ℝ) / 2 ^ m < 1 := (div_lt_one hq).2 (by exact_mod_cast hlt)
    have hnonneg : (0 : ℝ) ≤ j / 2 ^ m := by positivity
    exact Real.cos_pos_of_mem_Ioo ⟨by nlinarith, by nlinarith⟩
  · have hpart : 1 < (j : ℝ) / 2 ^ m := (one_lt_div hq).2 (by exact_mod_cast hgt)
    exact Real.cos_neg_of_pi_div_two_lt_of_lt (by nlinarith) (by nlinarith)
  · have hpart : (0 : ℝ) < j / 2 ^ m := div_pos (Nat.cast_pos.2 h0) hq
    exact Real.sin_pos_of_pos_of_lt_pi (by positivity) (by nlinarith)

/-! Both ROMs at every depth. -/

/-- `LOGNMAX = 1` with the entry 0 alone, or a quarter turn of `2^m` entries. -/
theorem depth_cases (p : Nat) : p = 0 ∨ ∃ m, p = m + 1 ∧ 2 ^ (p + 1) / 4 = 2 ^ m ∧ 2 ^ (p + 1) / 2 = 2 ^ (m + 1) := by
  cases p with
  | zero => exact .inl rfl
  | succ m =>
    have hq : 2 ^ (m + 1 + 1) = 4 * 2 ^ m := by rw [pow_succ', pow_succ']; omega
    exact .inr ⟨m, rfl, by omega, by omega⟩

theorem romB64_symmetries {p : Nat} (hp : p < 21) (j : Nat) :
    (0 < j → j < 2 ^ (p + 1) / 4 → Reflects fneg (romB64 (p + 1)) (2 ^ (p + 1) / 4) j) ∧
    (j < 2 ^ (p + 1) / 2 → isFinite (romB64 (p + 1) j).re = true ∧ isFinite (romB64 (p + 1) j).im = true ∧
      HasSigns Exact.ratValue (romB64 (p + 1)) (2 ^ (p + 1) / 4) j) := by
  rcases depth_cases p with rfl | ⟨m, rfl, hquarter, hhalf⟩
  · refine ⟨fun _ hj => absurd hj (Nat.not_lt_zero j), fun hj => ?_⟩
    obtain rfl : j = 0 := Nat.lt_one_iff.1 hj
    rw [romB64_zero]
    exact ⟨by decide, by decide, hasSigns_zero _ _⟩
  · rw [hquarter, hhalf]
    exact ⟨romB64_reflects, fun hj => ⟨isFinite_romB64_re hp hj, isFinite_romB64_im hp hj, romB64_hasSigns hp hj⟩⟩

theorem exactTwiddle_symmetries (p j : Nat) :
    (0 < j → j < 2 ^ (p + 1) / 4 → Reflects (fun x => -x) (exactTwiddle (p + 1)) (2 ^ (p + 1) / 4) j) ∧
    (j < 2 ^ (p + 1) / 2 → HasSigns (fun x => x) (exactTwiddle (p + 1)) (2 ^ (p + 1) / 4) j) := by
  rcases depth_cases p with rfl | ⟨m, rfl, hquarter, hhalf⟩
  · refine ⟨fun _ hj => absurd hj (Nat.not_lt_zero j), fun hj => ?_⟩
    obtain rfl : j = 0 := Nat.lt_one_iff.1 hj
    exact hasSigns_zero _ _
  · rw [hquarter, hhalf]
    exact ⟨fun _ => exactTwiddle_reflects, exactTwiddle_hasSigns⟩

/-- Settles O56: the reflections of both ROMs, and the signs, which in the first quarter turn are those of sine and
cosine. -/
theorem twiddleTableSymmetries : Obligations.TwiddleTableSymmetries :=
  ⟨fun p _ j => romB64_symmetries p.isLt j, fun p _ j => exactTwiddle_symmetries p.val j⟩

end Sys2Proof.Machine
end

section
/-!
PROOF. The control commands (`42_control_commands.md` R100 to R103): what acceptance, the length guard and an illegal
word come to in a ready FBU and in one with an error pending, and the effects of `NOP`, `SETN` and `CLRERR`.
-/

namespace Sys2Proof.Machine

variable {S V : Type}

/-- The machine moves to the state its FBU moves to. -/
theorem exec_next {c : Config} {i : Instr} {s f : Fbu c.Scalar c.Port} (h : execOf (build c) i s = .next f) :
    exec i ⟨c, s⟩ = .next ⟨c, f⟩ :=
  (exec_mk i c s).trans (congrArg (lift c) h)

/-! Illegal words. -/

theorem illegal_ready {s : Fbu S V} (hr : Ready s) (w : Word) : illegal w s = .next (s.raise .illegalCmd w) :=
  accepted_ready hr _

theorem illegal_dropped {s : Fbu S V} (hb : s.busy = false) (he : s.err = true) (w : Word) : illegal w s = .next s :=
  accepted_dropped hb he _

/-- A word of an assigned opcode whose `zero` field is not zero. -/
theorem cmdIssue_zeroField {B : Build S V} {i : Instr} {w : Word} (ho : bits w 31 26 = opcode i)
    (hz : zeroField i w ≠ 0) (s : Fbu S V) : cmdIssue B w s = illegal w s :=
  cmdIssue_illegal (decode_nonzeroZeroField_iff.2 ⟨i, ho, hz⟩) s

/-- A command that takes no operand from the word has one word; every other word of its opcode has a `zero` field that
is not zero. -/
theorem zeroField_ne_zero {i : Instr} {w : Word} (ho : bits w 31 26 = opcode i) (hi : i.withOperands w = i)
    (hne : w ≠ encode i) : zeroField i w ≠ 0 := fun hz =>
  hne (encode_of_decode (decode_ok_iff.2 ⟨ho, hz, hi.symm⟩)).symm

/-! The checks a command begins with. -/

/-- The seven datapath commands stand under the length guard (R103). -/
theorem execOf_guarded {i : Instr} (hi : isDatapath i = true) (B : Build S V) (s : Fbu S V) :
    ∃ run, execOf B i s = guarded B i s run := by
  cases i
  case nop | setn | clrerr => cases hi
  all_goals
    simp only [execOf, bitrevOf, bflyOf, stageOf, conjOf, scaleOf, fftOf, ifftOf]
    exact ⟨_, rfl⟩

/-- Every command but `CLRERR` stands under the acceptance checks (`60_exceptions.md` R193, checks 1 and 2). -/
theorem execOf_accepted {i : Instr} (hi : i ≠ .clrerr) (B : Build S V) (s : Fbu S V) :
    ∃ run, execOf B i s = accepted s run := by
  by_cases hd : isDatapath i = true
  · obtain ⟨run, e⟩ := execOf_guarded hd B s
    exact ⟨_, e⟩
  · cases i
    case nop | setn =>
      simp only [execOf, nopOf, setnOf]
      exact ⟨_, rfl⟩
    case clrerr => exact absurd rfl hi
    all_goals exact absurd rfl hd

/-- While `ERR = 1` every command but `CLRERR` is dropped (R192). -/
theorem execOf_dropped {B : Build S V} {i : Instr} {s : Fbu S V} (hi : i ≠ .clrerr) (hb : s.busy = false)
    (he : s.err = true) : execOf B i s = .next s := by
  obtain ⟨run, e⟩ := execOf_accepted hi B s
  exact e.trans (accepted_dropped hb he run)

/-- The guard answers before the command itself is asked. -/
theorem guarded_rejects {B : Build S V} {s : Fbu S V} (hr : Ready s) (hl : ¬ ∃ l, s.len = 2 ^ l) (i : Instr)
    (run : Nat → Nat → Out S V) : guarded B i s run = .next (s.raise .invalidLength (encode i)) := by
  rw [guarded, accepted_ready hr, if_neg (mt (powerOfTwoTest s.len).1.1 hl), failed]

theorem execOf_invalidLength {B : Build S V} {i : Instr} {s : Fbu S V} (hr : Ready s) (hi : isDatapath i = true)
    (hl : ¬ ∃ l, s.len = 2 ^ l) : execOf B i s = .next (s.raise .invalidLength (encode i)) := by
  obtain ⟨run, e⟩ := execOf_guarded hi B s
  exact e.trans (guarded_rejects hr hl i run)

/-- Settles O13: the length guard stands first in all seven commands. -/
theorem lengthGuardRejects : Obligations.LengthGuardRejects := fun _ _ _ hr hi hl =>
  exec_next (execOf_invalidLength hr hi hl)

/-! `NOP`. -/

/-- Held, dropped or executed, `NOP` answers the same state. -/
theorem execOf_nop (B : Build S V) (s : Fbu S V) : execOf B .nop s = .next s := by
  rcases accepted_cases s fun s => .next s with ⟨-, e⟩ | ⟨-, -, e⟩ | ⟨-, -, e⟩ <;> exact e

/-- Settles O7: `NOP` has no effect past its checks, and 0 is its one word. -/
theorem nopDoesNothing : Obligations.NopDoesNothing := by
  refine ⟨fun ⟨c, s⟩ => exec_next (execOf_nop _ s), fun w ho => ⟨?_, fun hw c s hr => ?_⟩⟩
  · rintro rfl
    decide
  · rw [cmdIssue_zeroField (i := .nop) ho (zeroField_ne_zero ho rfl hw)]
    exact illegal_ready hr w

/-! `SETN`. -/

theorem execOf_setn_stores {B : Build S V} {s : Fbu S V} (hr : Ready s) {n : Nat} (hn : n ≤ B.nmax) :
    execOf B (.setn n) s = .next { s with nlen := BitVec.ofNat 22 n } := by
  rw [execOf, setnOf, accepted_ready hr, if_pos hn]

theorem execOf_setn_lengthRange {B : Build S V} {s : Fbu S V} (hr : Ready s) {n : Nat} (hn : B.nmax < n) :
    execOf B (.setn n) s = .next (s.raise .lengthRange (encode (.setn n))) := by
  rw [execOf, setnOf, accepted_ready hr, if_neg (Nat.not_le.2 hn), failed]

/-- A length up to `NMAX` is stored without loss. -/
theorem nlen_toNat_of_le {B : Build S V} {n : Nat} (hn : n ≤ B.nmax) : (BitVec.ofNat 22 n).toNat = n :=
  (BitVec.toNat_ofNat ..).trans (Nat.mod_eq_of_lt (hn.trans_lt (nmax_lt B)))

/-- The length stands below the opcode in the word of `SETN`. -/
theorem encode_setn {n : Nat} (hn : n < 2 ^ 22) : encode (.setn n) = 0x04000000 ||| BitVec.ofNat 32 n := by
  apply encode_eq_of_toNat
  have hword : (BitVec.ofNat 32 n).toNat = n := (BitVec.toNat_ofNat ..).trans (Nat.mod_eq_of_lt (by omega))
  have hop : (0x04000000 : Word).toNat = 2 ^ 26 * 1 := by decide
  rw [BitVec.toNat_or, hword, hop, ← Nat.two_pow_add_eq_or_of_lt (by omega)]
  simp [opcode, fields]

/-- Settles O8: past its checks `SETN` compares with `NMAX`, and its `zero` field is bits 25:22. -/
theorem setnSetsTheLength : Obligations.SetnSetsTheLength := by
  refine fun c s hr => ⟨fun n hn => ⟨exec_next (execOf_setn_stores hr hn), nlen_toNat_of_le hn⟩,
    fun n hn => exec_next (execOf_setn_lengthRange hr hn), fun n hn => ?_, fun w ho hz => ?_⟩
  · rw [← encode_setn hn]
    exact decodeEncodeRoundTrip (.setn n) (decide_eq_true hn)
  · rw [cmdIssue_zeroField (i := .setn 0) ho hz]
    exact illegal_ready hr w

/-! `CLRERR`. -/

theorem execOf_clrerr {B : Build S V} {s : Fbu S V} (hb : s.busy = false) :
    execOf B .clrerr s = .next s.clearError := by
  rw [execOf, clrerrOf, hb]
  rfl

/-- With no error there is nothing to clear. -/
theorem clearError_eq_self {s : Fbu S V} (hok : ErrorOk s) (he : s.err = false) : s.clearError = s := by
  obtain ⟨hcode, -, hcmd⟩ := hok
  rw [Fbu.clearError, ← he, ← hcode.1 he, ← hcmd he]

/-- Settles O9: `CLRERR` alone is not under the check of `ERR`, and `0x08000000` is its one word. -/
theorem clrerrClearsTheError : Obligations.ClrerrClearsTheError := by
  refine ⟨by decide, fun c s hb => ⟨exec_next (execOf_clrerr hb), fun hok he => exec_next ?_,
    fun i hi he => exec_next (execOf_dropped hi hb he), fun w ho hw => ?_⟩⟩
  · rw [execOf_clrerr hb, clearError_eq_self hok he]
  · have hillegal := cmdIssue_zeroField (B := build c) (i := .clrerr) ho (zeroField_ne_zero ho rfl hw) s
    exact ⟨fun he => hillegal.trans (illegal_dropped hb he w), fun he => hillegal.trans (illegal_ready ⟨hb, he⟩ w)⟩

end Sys2Proof.Machine
end

section
/-!
PROOF. Runs of the engine (`48_sequencer_microsteps.md` R170 to R177): a phase is the loop of its body, and a loop whose
bodies work on separate words does each body's work on the words as they were before the loop.
-/

namespace Sys2Proof.Machine

variable {S V : Type}

/-! What a command's result is said with. -/

/-- Whatever a read returns is a reading of the word (`10_state.md` R21). -/
theorem load_reads (B : Build S V) (s : Fbu S V) (i : Nat) : Reads (s.word i) (s.load B i).1 := by
  intro v hv
  rw [load_written hv]

/-- Only `XMEM` and the count of free values have changed. -/
theorem Touches.eq_frame {P : Nat → Prop} {s t : Fbu S V} (h : Touches P s t) :
    t = { s with xmem := t.xmem, free := t.free } := by
  obtain ⟨hnlen, herr, hcode, hcmd, hseq, hpending, hreplies, -, -⟩ := h
  rw [← hnlen, ← herr, ← hcode, ← hcmd, ← hseq, ← hpending, ← hreplies]

/-! The work of a step does not look at `SEQ` in the state. -/

theorem load_setSeq (B : Build S V) (s : Fbu S V) (q : Seq) (i : Nat) :
    Fbu.load B { s with seq := q } i = ((s.load B i).1, { (s.load B i).2 with seq := q }) := by
  rcases load_cases B s i with ⟨v, hv, e⟩ | ⟨hn, e⟩
  · rw [e]; exact load_written hv
  · rw [e]; exact load_unwritten hn

theorem drawn_setSeq (B : Build S V) (s : Fbu S V) (q : Seq) (k : Nat) :
    Fbu.drawn B { s with seq := q } k = { s.drawn B k with seq := q } := by
  unfold Fbu.drawn
  split <;> rfl

theorem phaseBody_setSeq (B : Build S V) (l : Nat) (p : Seq) (s : Fbu S V) (q : Seq) :
    phaseBody B l p { s with seq := q } = { phaseBody B l p s with seq := q } := by
  unfold phaseBody
  cases p.phase with
  | idle => rfl
  | cnj1 | cnj2 => simp only [cnjBody, load_setSeq]; rfl
  | scl => simp only [sclBody, load_setSeq, drawn_setSeq]; rfl
  | bfy => simp only [bfyBody, butterfly, load_setSeq, drawn_setSeq]; rfl
  | rev =>
    simp only [revBody, load_setSeq]
    split <;> rfl

/-- The work of a step changes nothing but words and the count of free values, whatever `SEQ` says. -/
theorem phaseBody_touches_words (B : Build S V) (l : Nat) (q : Seq) (s : Fbu S V) :
    Touches (fun _ => True) s (phaseBody B l q s) := by
  unfold phaseBody
  cases q.phase with
  | idle => exact Touches.refl _ _
  | cnj1 | cnj2 => exact (cnjBody_touches B _ s).mono fun _ _ => trivial
  | scl => exact (sclBody_touches B _ _ s).mono fun _ _ => trivial
  | rev => exact (revBody_touches B _ _ s).mono fun _ _ => trivial
  | bfy => exact (butterfly_touches B _ _ s).mono fun _ _ => trivial

/-! Runs. -/

theorem engineRun_succ {B : Build S V} {k : Nat} {s t : Fbu S V} (h : engineRun B k s = .next t) :
    engineRun B (k + 1) s = engineStep B t := by
  induction k generalizing s with
  | zero =>
    cases h
    rw [engineRun]
    cases engineStep B t <;> rfl
  | succ k ih =>
    rw [engineRun] at h ⊢
    cases hs : engineStep B s with
    | next u => rw [hs] at h; exact ih h
    | fault f => rw [hs] at h; cases h
    | refused r => rw [hs] at h; cases h

/-- One step of a phase: its body, then the next counter or the end of the phase (R172 to R176). -/
theorem engineStep_inPhase {B : Build S V} {s : Fbu S V} {l : Nat} {q fin : Seq} (hl : HasLength B s l)
    (hq : seqInRange (2 ^ l) l q = true) (hend : phaseEnd l q = some fin) :
    engineStep B { s with seq := q } = .next { phaseBody B l q s with seq := advance (2 ^ l) q fin } := by
  have hlen : Fbu.len { s with seq := q } = 2 ^ l := hl.1
  have hlog : log2 (Fbu.len { s with seq := q }) = l := by rw [hlen, log2_two_pow]
  have hrun : runnable B { s with seq := q } = true := by
    refine runnable_iff.2 ⟨?_, ?_, ?_⟩
    · rw [hlen, ispow2_two_pow]
    · rw [hlen]; exact Nat.pow_le_pow_right two_pos hl.2
    · rw [hlog, hlen]; exact hq
  rw [engineStep_runs hrun (by rw [hlog]; exact hend), hlog, hlen, phaseBody_setSeq]

/-- The loop of a phase, up to its step number `k`. -/
def phaseLoop (B : Build S V) (l : Nat) (q : Seq) (k : Nat) (s : Fbu S V) : Fbu S V :=
  forBelow k (fun j => phaseBody B l { q with j := j }) s

theorem phaseLoop_touches_words (B : Build S V) (l : Nat) (q : Seq) (k : Nat) (s : Fbu S V) :
    Touches (fun _ => True) s (phaseLoop B l q k s) :=
  forBelow_touches (fun _ _ => phaseBody_touches_words B l _) s

/-- The first `k` steps of a phase are the first `k` bodies of its loop; after the last one `SEQ` is what `PhaseEnd`
says. -/
theorem engineRun_phase {B : Build S V} {s : Fbu S V} {l k : Nat} {q fin : Seq} (hl : HasLength B s l) (hj : q.j = 0)
    (hq : seqInRange (2 ^ l) l q = true) (hend : phaseEnd l q = some fin) (hk : k ≤ phaseLength (2 ^ l) q) :
    engineRun B k { s with seq := q } =
      .next { phaseLoop B l q k s with seq := if k < phaseLength (2 ^ l) q then { q with j := k } else fin } := by
  induction k with
  | zero =>
    have hpos : 0 < phaseLength (2 ^ l) q := by
      simp only [seqInRange, Bool.and_eq_true, decide_eq_true_eq] at hq
      omega
    obtain ⟨p, m, st, j⟩ := q
    subst hj
    rw [if_pos hpos]
    rfl
  | succ k ih =>
    have hl' : HasLength B (phaseLoop B l q k s) l :=
      ⟨(len_congr (phaseLoop_touches_words B l q k s).nlen).trans hl.1, hl.2⟩
    have hbefore := ih (by omega)
    rw [if_pos (Nat.lt_of_succ_le hk)] at hbefore
    rw [engineRun_succ hbefore,
      engineStep_inPhase hl' (seqInRange_counter hq hk) ((phaseEnd_counter l k q).trans hend)]
    rfl

/-- All steps of a phase are its loop. -/
theorem engineRun_wholePhase {B : Build S V} {s : Fbu S V} {l : Nat} {q fin : Seq} (hl : HasLength B s l) (hj : q.j = 0)
    (hq : seqInRange (2 ^ l) l q = true) (hend : phaseEnd l q = some fin) :
    engineRun B (phaseLength (2 ^ l) q) { s with seq := q } =
      .next { phaseLoop B l q (phaseLength (2 ^ l) q) s with seq := fin } := by
  rw [engineRun_phase hl hj hq hend le_rfl, if_neg (lt_irrefl _)]

/-! Loops over separate words. -/

/-- Where each body touches words of its own, the words of body `j` end as that body leaves them, started on a state in
which they are as before the loop. -/
theorem forBelow_separate {n : Nat} {body : Nat → Fbu S V → Fbu S V} {P : Nat → Nat → Prop}
    (htouch : ∀ j s, Touches (P j) s (body j s))
    (hsep : ∀ j < n, ∀ j' < n, j ≠ j' → ∀ i, P j i → ¬ P j' i) {j : Nat} (hj : j < n) (s : Fbu S V) :
    ∃ t, ∀ i, P j i → t.word i = s.word i ∧ (forBelow n body s).word i = (body j t).word i := by
  induction n with
  | zero => omega
  | succ n ih =>
    by_cases hlast : j = n
    · subst hlast
      have hbefore : Touches (fun i => ¬ P j i) s (forBelow j body s) :=
        forBelow_touches (fun j' hj' s => (htouch j' s).mono fun i => hsep j' (by omega) j hj (by omega) i) s
      exact ⟨forBelow j body s, fun i hi => ⟨hbefore.word i (not_not.2 hi), rfl⟩⟩
    · obtain ⟨t, ht⟩ := ih (fun j hj j' hj' => hsep j (by omega) j' (by omega)) (by omega)
      refine ⟨t, fun i hi => ⟨(ht i hi).1, ?_⟩⟩
      have hkept := hsep j hj n (by omega) hlast i hi
      exact ((htouch n (forBelow n body s)).word i hkept).trans (ht i hi).2

end Sys2Proof.Machine
end

section
/-!
PROOF. The butterfly commands `BFLY` and `STAGE` (`43_butterfly_commands.md` R110 to R113).
-/

namespace Sys2Proof.Machine

variable {S V : Type}

/-! Acceptance. -/

theorem execOf_stage {B : Build S V} {s : Fbu S V} {l : Nat} (hr : Ready s) (hl : HasLength B s l) (st : Nat) :
    execOf B (.stage st) s = if legalStage l st then started s .bfy .none st else failed s .badOperand (.stage st) := by
  rw [execOf, stageOf, guarded_runs hr hl]

theorem execOf_bfly {B : Build S V} {s : Fbu S V} {l : Nat} (hr : Ready s) (hl : HasLength B s l) (st a : Nat) :
    execOf B (.bfly st a) s =
      if legalStage l st then
        if legalFirst (2 ^ l) st a then .next (butterfly B st a s) else failed s .badOperand (.bfly st a)
      else failed s .badOperand (.bfly st a) := by
  rw [execOf, bflyOf, guarded_runs hr hl]

theorem execOf_stage_badStage {B : Build S V} {s : Fbu S V} {l st : Nat} (hr : Ready s) (hl : HasLength B s l)
    (hst : ¬ legalStage l st = true) : execOf B (.stage st) s = .next (s.raise .badOperand (encode (.stage st))) :=
  (execOf_stage hr hl st).trans (if_neg hst)

theorem execOf_bfly_badOperand {B : Build S V} {s : Fbu S V} {l st a : Nat} (hr : Ready s) (hl : HasLength B s l)
    (hbad : ¬ (legalStage l st = true ∧ legalFirst (2 ^ l) st a = true)) :
    execOf B (.bfly st a) s = .next (s.raise .badOperand (encode (.bfly st a))) := by
  rw [execOf_bfly hr hl]
  split
  · next hst => exact if_neg fun ha => hbad ⟨hst, ha⟩
  · rfl

/-- Settles O14: the operand checks are R110's, and error entry is the three writes. -/
theorem badOperandsAreReported : Obligations.BadOperandsAreReported := by
  refine fun c s l st a hr hl => ⟨fun hst => ?_, fun _ _ ha => ?_⟩
  · have hbad : ¬ legalStage l st = true := by
      rw [legalStage_iff]
      omega
    exact ⟨exec_next (execOf_stage_badStage hr hl hbad), exec_next (execOf_bfly_badOperand hr hl fun h => hbad h.1)⟩
  · refine exec_next (execOf_bfly_badOperand hr hl fun ⟨_, hfirst⟩ => ?_)
    obtain ⟨hlt, hclear⟩ := legalFirst_iff_testBit.1 hfirst
    rcases ha with hge | hset
    · omega
    · exact Bool.noConfusion (hset.symm.trans hclear)

/-! One butterfly. -/

/-- The contents `x`, `y` are the butterfly of stage `st` at position `k` on readings of words with the known
contents `we` and `wo`. -/
def ButterflyOf (B : Build S V) (st k : Nat) (we wo x y : Option (Cx S)) : Prop :=
  ∃ e o n, Reads we e ∧ Reads wo o ∧
    x = some (BF (numsFrom B n) e o (tw B k st)).1 ∧ y = some (BF (numsFrom B n) e o (tw B k st)).2

theorem ne_pairSecond (st a : Nat) : a ≠ pairSecond st a := by
  have := half_pos st
  rw [pairSecond]
  omega

/-- A butterfly reads both words of its pair before it writes either (`20_memory.md` R43). -/
theorem butterfly_words (B : Build S V) (st a : Nat) (s : Fbu S V) :
    ButterflyOf B st (a % half st) (s.word a) (s.word (pairSecond st a))
      ((butterfly B st a s).word a) ((butterfly B st a s).word (pairSecond st a)) := by
  have hread := load_reads B (s.load B a).2 (pairSecond st a)
  rw [load_word] at hread
  refine ⟨_, _, ((s.load B a).2.load B (pairSecond st a)).2.free, load_reads B s a, hread, ?_, ?_⟩
  · rw [butterfly, word_store, if_neg (ne_pairSecond st a), word_store, if_pos rfl]
    rfl
  · rw [butterfly, word_store, if_pos rfl]
    rfl

/-- Settles O16: a legal pair passes the checks, and `BFLY` is one butterfly. -/
theorem bflyCombinesOnePair : Obligations.BflyCombinesOnePair := by
  intro c s l st a hr hl h1 hst ha hbit
  have hs := legalStage_iff.2 ⟨h1, hst⟩
  have hfirst := legalFirst_iff_testBit.2 ⟨ha, hbit⟩
  have htouch := butterfly_touches (build c) st a s
  have hexec : execOf (build c) (.bfly st a) s = .next (butterfly (build c) st a s) := by
    rw [execOf_bfly hr hl, if_pos hs, if_pos hfirst]
  obtain ⟨e, o, n, he, ho, hx, hy⟩ := butterfly_words (build c) st a s
  exact ⟨_, e, o, n, exec_next hexec, htouch.eq_frame, he, ho, pairSecond_lt hs hfirst, hx, hy,
    fun i hia hib => htouch.word i (not_or.2 ⟨hia, hib⟩)⟩

/-! A stage. -/

theorem testBit_pairSecond {st : Nat} (h : 1 ≤ st) (j : Nat) :
    (pairSecond st (pairFirst st j)).testBit (st - 1) = true := by
  rw [pairSecond_eq_or h, Nat.testBit_or, half, Nat.testBit_two_pow_self, Bool.or_true]

theorem pairFirst_ne_pairSecond {l st j : Nat} (hs : legalStage l st = true) (hj : j < 2 ^ l / 2) (j' : Nat) :
    pairFirst st j ≠ pairSecond st (pairFirst st j') := by
  intro heq
  have hclear := (legalFirst_iff_testBit.1 (legalFirst_pairFirst hs hj)).2
  rw [heq, testBit_pairSecond (legalStage_iff.1 hs).1] at hclear
  cases hclear

/-- No word is in two pairs of a stage (R84). -/
theorem pairs_separate {l st j j' i : Nat} (hs : legalStage l st = true) (hj : j < 2 ^ l / 2) (hj' : j' < 2 ^ l / 2)
    (hne : j ≠ j') (hi : i = pairFirst st j ∨ i = pairSecond st (pairFirst st j)) :
    ¬ (i = pairFirst st j' ∨ i = pairSecond st (pairFirst st j')) := by
  have hfirst : pairFirst st j ≠ pairFirst st j' := (pairFirst_injective (legalStage_iff.1 hs).1).ne hne
  rcases hi with rfl | rfl
  · exact not_or.2 ⟨hfirst, pairFirst_ne_pairSecond hs hj j'⟩
  · exact not_or.2 ⟨(pairFirst_ne_pairSecond hs hj' j).symm, fun h => hfirst (Nat.add_right_cancel h)⟩

/-- The loop of a stage combines every pair, as its words were before the loop. -/
theorem stageLoop_words (B : Build S V) {l st j : Nat} (hs : legalStage l st = true) (hj : j < 2 ^ l / 2)
    (s : Fbu S V) :
    ButterflyOf B st (pairFirst st j % half st) (s.word (pairFirst st j)) (s.word (pairSecond st (pairFirst st j)))
      ((stageLoop B (2 ^ l) st s).word (pairFirst st j))
      ((stageLoop B (2 ^ l) st s).word (pairSecond st (pairFirst st j))) := by
  obtain ⟨t, ht⟩ := forBelow_separate (fun j => butterfly_touches B st (pairFirst st j))
    (fun j hj j' hj' hne _ => pairs_separate hs hj hj' hne) hj s
  obtain ⟨hfirst, hfirst'⟩ := ht _ (.inl rfl)
  obtain ⟨hsecond, hsecond'⟩ := ht _ (.inr rfl)
  have hwords := butterfly_words B st (pairFirst st j) t
  rw [hfirst, hsecond, ← hfirst', ← hsecond'] at hwords
  exact hwords

theorem stageLoop_touches_frame (B : Build S V) {l st : Nat} (hs : legalStage l st = true) (s : Fbu S V) :
    Touches (· < 2 ^ l) s (stageLoop B (2 ^ l) st s) := by
  refine forBelow_touches (fun j hj s => (butterfly_touches B st (pairFirst st j) s).mono fun i hi => ?_) s
  have hlegal := legalFirst_pairFirst hs hj
  rcases hi with rfl | rfl
  · exact (legalFirst_iff.1 hlegal).1
  · exact pairSecond_lt hs hlegal

/-- Position `k` of block `g` is butterfly `g·half + k`. -/
theorem pairFirst_of_block {st k : Nat} (hk : k < half st) (g : Nat) :
    pairFirst st (half st * g + k) = g * 2 ^ st + k := by
  rw [pairFirst, pairPos, Nat.mul_add_div (half_pos st), Nat.mul_add_mod, Nat.div_eq_of_lt hk, Nat.mod_eq_of_lt hk,
    add_zero]

theorem butterfly_of_block_lt {l st g k : Nat} (hs : legalStage l st = true) (hg : g < 2 ^ (l - st))
    (hk : k < half st) : half st * g + k < 2 ^ l / 2 := by
  have hnext : half st * (g + 1) ≤ half st * 2 ^ (l - st) := Nat.mul_le_mul_left _ hg
  rw [butterflies_eq hs, mul_comm _ (half st)]
  linarith

theorem block_mod_half {st k : Nat} (h : 1 ≤ st) (hk : k < half st) (g : Nat) : (g * 2 ^ st + k) % half st = k := by
  rw [two_mul_half h, show g * (2 * half st) = half st * (2 * g) by ring, Nat.mul_add_mod, Nat.mod_eq_of_lt hk]

/-- The same block by block (R113): the words `k` and `half + k` of block `g`. -/
theorem stageLoop_block (B : Build S V) {l st g k : Nat} (hs : legalStage l st = true) (hg : g < 2 ^ (l - st))
    (hk : k < half st) (s : Fbu S V) :
    ButterflyOf B st k (s.word (g * 2 ^ st + k)) (s.word (g * 2 ^ st + half st + k))
      ((stageLoop B (2 ^ l) st s).word (g * 2 ^ st + k))
      ((stageLoop B (2 ^ l) st s).word (g * 2 ^ st + half st + k)) := by
  have hwords := stageLoop_words B hs (butterfly_of_block_lt hs hg hk) s
  rwa [pairFirst_of_block hk, block_mod_half (legalStage_iff.1 hs).1 hk, pairSecond, add_right_comm] at hwords

/-- The `N/2` engine steps of an accepted `STAGE` are its loop (R173, R177). -/
theorem engineRun_stage {B : Build S V} {s : Fbu S V} {l st : Nat} (hl : HasLength B s l)
    (hs : legalStage l st = true) :
    engineRun B (2 ^ l / 2) { s with seq := { phase := .bfy, mac := .none, s := st, j := 0 } } =
      .next { stageLoop B (2 ^ l) st s with seq := Seq.rest } :=
  engineRun_wholePhase hl rfl (seqRuns_stage rfl .none hs).1 rfl

/-- Settles O20: the engine runs the loop of the stage, and the pairs of the loop are separate. -/
theorem stageCombinesEveryBlock : Obligations.StageCombinesEveryBlock := by
  intro c s l st hr hl h1 hst
  have hs := legalStage_iff.2 ⟨h1, hst⟩
  have hframe := stageLoop_touches_frame (build c) hs s
  have hexec : execOf (build c) (.stage st) s = started s .bfy .none st := by
    rw [execOf_stage hr hl, if_pos hs]
  exact ⟨_, _, exec_next hexec, engineRun_stage hl hs,
    congrArg (fun t : Fbu _ _ => { t with seq := Seq.rest }) hframe.eq_frame,
    fun g k hg hk => stageLoop_block (build c) hs hg hk s,
    fun i hi => hframe.word i (not_lt.2 hi)⟩

end Sys2Proof.Machine
end

section
/-!
PROOF. The commands `BITREV`, `CONJ` and `SCALE` (`44_permute_conj_scale_commands.md` R120 to R122): the `N` engine
steps of each are its loop, and the bodies of the loop work on separate words.
-/

namespace Sys2Proof.Machine

variable {S V : Type}

/-! Acceptance, and the engine steps as a loop. -/

theorem execOf_bitrev {B : Build S V} {s : Fbu S V} {l : Nat} (hr : Ready s) (hl : HasLength B s l) :
    execOf B .bitrev s = started s .rev .none 0 := by
  rw [execOf, bitrevOf, guarded_runs hr hl]

theorem execOf_conj {B : Build S V} {s : Fbu S V} {l : Nat} (hr : Ready s) (hl : HasLength B s l) :
    execOf B .conj s = started s .cnj1 .none 0 := by
  rw [execOf, conjOf, guarded_runs hr hl]

theorem execOf_scale {B : Build S V} {s : Fbu S V} {l : Nat} (hr : Ready s) (hl : HasLength B s l) :
    execOf B .scale s = started s .scl .none 0 := by
  rw [execOf, scaleOf, guarded_runs hr hl]

/-- The `N` engine steps of an accepted `BITREV` are its loop (R172, R177). -/
theorem engineRun_bitrev {B : Build S V} {s : Fbu S V} {l : Nat} (hl : HasLength B s l) :
    engineRun B (2 ^ l) { s with seq := { phase := .rev, mac := .none, s := 0, j := 0 } } =
      .next { revLoop B (2 ^ l) l s with seq := Seq.rest } :=
  engineRun_wholePhase hl rfl (seqRuns_words (p := .rev) (m := .none) rfl (by decide) rfl).1 rfl

/-- The `N` engine steps of an accepted `CONJ` are its loop (R174, R177). -/
theorem engineRun_conj {B : Build S V} {s : Fbu S V} {l : Nat} (hl : HasLength B s l) :
    engineRun B (2 ^ l) { s with seq := { phase := .cnj1, mac := .none, s := 0, j := 0 } } =
      .next { conjLoop B (2 ^ l) s with seq := Seq.rest } :=
  engineRun_wholePhase hl rfl (seqRuns_words (p := .cnj1) (m := .none) rfl (by decide) rfl).1 rfl

/-- The `N` engine steps of an accepted `SCALE` are its loop (R175, R177). -/
theorem engineRun_scale {B : Build S V} {s : Fbu S V} {l : Nat} (hl : HasLength B s l) :
    engineRun B (2 ^ l) { s with seq := { phase := .scl, mac := .none, s := 0, j := 0 } } =
      .next { scaleLoop B (2 ^ l) l s with seq := Seq.rest } :=
  engineRun_wholePhase hl rfl (seqRuns_words (p := .scl) (m := .none) rfl (by decide) rfl).1 rfl

/-! Loops whose body `j` works on word `j`. -/

section wordwise

variable {n : Nat} {body : Nat → Fbu S V → Fbu S V} (htouch : ∀ j s, Touches (· = j) s (body j s))

include htouch

theorem forBelow_touches_below (s : Fbu S V) : Touches (· < n) s (forBelow n body s) :=
  forBelow_touches (fun j hj s => (htouch j s).mono fun _ hi => hi.trans_lt hj) s

/-- What a body does to its word, the loop does to every word. -/
theorem forBelow_wordwise {R : Option (Cx S) → Option (Cx S) → Prop} (hbody : ∀ j s, R (s.word j) ((body j s).word j))
    {i : Nat} (hi : i < n) (s : Fbu S V) : R (s.word i) ((forBelow n body s).word i) := by
  obtain ⟨t, ht⟩ := forBelow_separate htouch (fun j _ j' _ hne _ hij hij' => hne (hij.symm.trans hij')) hi s
  obtain ⟨hbefore, hafter⟩ := ht i rfl
  rw [← hbefore, hafter]
  exact hbody i t

end wordwise

/-! `CONJ`. -/

theorem cnjBody_word (B : Build S V) (j : Nat) (s : Fbu S V) :
    ∃ x, Reads (s.word j) x ∧ (cnjBody B j s).word j = some (cconj (B.numAt 0) x) :=
  ⟨_, load_reads B s j, by rw [cnjBody, word_store, if_pos rfl]⟩

theorem conjLoop_word (B : Build S V) {n i : Nat} (hi : i < n) (s : Fbu S V) :
    ∃ x, Reads (s.word i) x ∧ (conjLoop B n s).word i = some (cconj (B.numAt 0) x) :=
  forBelow_wordwise (R := fun w u => ∃ x, Reads w x ∧ u = some (cconj (B.numAt 0) x)) (cnjBody_touches B)
    (cnjBody_word B) hi s

/-- Settles O18: the engine runs the loop of `CONJ`, and body `j` conjugates word `j`. -/
theorem conjConjugatesTheFrame : Obligations.ConjConjugatesTheFrame := by
  intro c s l hr hl
  have hframe : Touches (· < 2 ^ l) s (conjLoop (build c) (2 ^ l) s) := forBelow_touches_below (cnjBody_touches _) s
  exact ⟨_, _, exec_next (execOf_conj hr hl), engineRun_conj hl,
    congrArg (fun t : Fbu _ _ => { t with seq := Seq.rest }) hframe.eq_frame,
    fun i hi => conjLoop_word (build c) hi s,
    fun i hi => hframe.word i (not_lt.2 hi)⟩

/-! `SCALE`. -/

theorem sclBody_word (B : Build S V) (l j : Nat) (s : Fbu S V) :
    ∃ x n, Reads (s.word j) x ∧ (sclBody B l j s).word j = some (cscale (numsFrom B n) x l) := by
  refine ⟨_, (s.load B j).2.free, load_reads B s j, ?_⟩
  rw [sclBody, word_store, if_pos rfl]
  rfl

theorem scaleLoop_word (B : Build S V) (l : Nat) {n i : Nat} (hi : i < n) (s : Fbu S V) :
    ∃ x k, Reads (s.word i) x ∧ (scaleLoop B n l s).word i = some (cscale (numsFrom B k) x l) :=
  forBelow_wordwise (R := fun w u => ∃ x k, Reads w x ∧ u = some (cscale (numsFrom B k) x l)) (sclBody_touches B l)
    (sclBody_word B l) hi s

/-- Settles O19: the engine runs the loop of `SCALE`, and body `j` divides word `j`. -/
theorem scaleDividesTheFrame : Obligations.ScaleDividesTheFrame := by
  intro c s l hr hl
  have hframe : Touches (· < 2 ^ l) s (scaleLoop (build c) (2 ^ l) l s) :=
    forBelow_touches_below (sclBody_touches _ l) s
  exact ⟨_, _, exec_next (execOf_scale hr hl), engineRun_scale hl,
    congrArg (fun t : Fbu _ _ => { t with seq := Seq.rest }) hframe.eq_frame,
    fun i hi => scaleLoop_word (build c) l hi s,
    fun i hi => hframe.word i (not_lt.2 hi)⟩

/-! `BITREV`. -/

/-- Body `j` of the permutation writes word `i`: it swaps, and `i` is one of the two words swapped. -/
def SwappedBy (l j i : Nat) : Prop := j < brev l j ∧ (i = j ∨ i = brev l j)

theorem revBody_touches_swapped (B : Build S V) (l j : Nat) (s : Fbu S V) :
    Touches (SwappedBy l j) s (revBody B l j s) := by
  by_cases h : j < brev l j
  · exact (revBody_touches B l j s).mono fun _ hi => ⟨h, hi⟩
  · rw [revBody_stays h]
    exact Touches.refl _ _

/-- No word is swapped twice: of the two bodies for `j` and `brev_L(j)` only the smaller one swaps. -/
theorem swaps_separate {l j j' i : Nat} (hj : j < 2 ^ l) (hj' : j' < 2 ^ l) (hne : j ≠ j') (hi : SwappedBy l j i) :
    ¬ SwappedBy l j' i := by
  rintro ⟨hlt', hi'⟩
  obtain ⟨hlt, hi⟩ := hi
  have hback := brev_brev hj
  have hback' := brev_brev hj'
  rcases hi with rfl | rfl <;> rcases hi' with h | h
  · exact hne h
  · rw [h, hback', ← h] at hlt
    omega
  · rw [← h, hback] at hlt'
    omega
  · exact hne (by rw [← hback, h, hback'])

/-- Only words of the frame that are no palindromes are touched. -/
theorem revLoop_touches (B : Build S V) (l : Nat) (s : Fbu S V) :
    Touches (fun i => i < 2 ^ l ∧ brev l i ≠ i) s (revLoop B (2 ^ l) l s) := by
  refine forBelow_touches (fun j hj s => (revBody_touches_swapped B l j s).mono ?_) s
  rintro i ⟨hlt, rfl | rfl⟩
  · exact ⟨hj, hlt.ne'⟩
  · exact ⟨brev_lt l j, by rw [brev_brev hj]; exact hlt.ne⟩

/-- The content `u` is a reading of a word with the known content `w`. -/
def Copies (w u : Option (Cx S)) : Prop := ∃ x, Reads w x ∧ u = some x

/-- Both words are read before either is written (`20_memory.md` R43). -/
theorem revBody_words (B : Build S V) {l j : Nat} (h : j < brev l j) (s : Fbu S V) :
    Copies (s.word (brev l j)) ((revBody B l j s).word j) ∧ Copies (s.word j) ((revBody B l j s).word (brev l j)) := by
  have hread := load_reads B (s.load B j).2 (brev l j)
  rw [load_word] at hread
  refine ⟨⟨_, hread, ?_⟩, ⟨_, load_reads B s j, ?_⟩⟩
  · rw [revBody, if_pos h, word_store, if_neg h.ne, word_store, if_pos rfl]
  · rw [revBody, if_pos h, word_store, if_pos rfl]

theorem revLoop_words (B : Build S V) {l j : Nat} (hj : j < 2 ^ l) (h : j < brev l j) (s : Fbu S V) :
    Copies (s.word (brev l j)) ((revLoop B (2 ^ l) l s).word j) ∧
      Copies (s.word j) ((revLoop B (2 ^ l) l s).word (brev l j)) := by
  obtain ⟨t, ht⟩ := forBelow_separate (revBody_touches_swapped B l)
    (fun j hj j' hj' hne _ => swaps_separate hj hj' hne) hj s
  obtain ⟨hlow, hlow'⟩ := ht j ⟨h, .inl rfl⟩
  obtain ⟨hhigh, hhigh'⟩ := ht (brev l j) ⟨h, .inr rfl⟩
  have hwords := revBody_words B h t
  rw [hlow, hhigh, ← hlow', ← hhigh'] at hwords
  exact hwords

/-- Word `i` takes the content of word `brev_L(i)`, whichever of the two the loop comes to first. -/
theorem revLoop_word (B : Build S V) {l i : Nat} (hi : i < 2 ^ l) (hne : brev l i ≠ i) (s : Fbu S V) :
    Copies (s.word (brev l i)) ((revLoop B (2 ^ l) l s).word i) := by
  rcases hne.symm.lt_or_gt with hlt | hgt
  · exact (revLoop_words B hi hlt s).1
  · have hwords := revLoop_words B (brev_lt l i) (by rwa [brev_brev hi]) s
    rw [brev_brev hi] at hwords
    exact hwords.2

/-- Settles O17: the engine runs the loop of `BITREV`, and its swaps are separate. -/
theorem bitrevPermutesTheFrame : Obligations.BitrevPermutesTheFrame := by
  intro c s l hr hl
  have hframe := revLoop_touches (build c) l s
  exact ⟨_, _, exec_next (execOf_bitrev hr hl), engineRun_bitrev hl,
    congrArg (fun t : Fbu _ _ => { t with seq := Seq.rest }) hframe.eq_frame,
    fun i _ hpal => hframe.word i fun h => h.2 hpal,
    fun i hi hne => revLoop_word (build c) hi hne s,
    fun i hi => hframe.word i fun h => absurd h.1 (not_lt.2 hi)⟩

/-! The loops on a written frame. -/

theorem Holds.revLoop {B : Build S V} {s : Fbu S V} {l : Nat} {x : Nat → Cx S} (h : Holds s l x) :
    Holds (revLoop B (2 ^ l) l s) l fun i => x (brev l i) := by
  intro i hi
  beta_reduce
  by_cases hpal : brev l i = i
  · rw [(revLoop_touches B l s).word i fun h => h.2 hpal, h i hi, hpal]
  · obtain ⟨y, hy, hword⟩ := revLoop_word B hi hpal s
    rw [hword, hy _ (h _ (brev_lt l i))]

theorem Holds.conjLoop {B : Build S V} {s : Fbu S V} {l : Nat} {x : Nat → Cx S} (h : Holds s l x) :
    Holds (conjLoop B (2 ^ l) s) l fun i => cconj (B.numAt 0) (x i) := by
  intro i hi
  obtain ⟨y, hy, hword⟩ := conjLoop_word B hi s
  rw [hword, hy _ (h i hi)]

/-- Conjugation undoes itself wherever negation does (R80). -/
theorem cconj_cconj {num : Num S} (h : ∀ x, num.fneg (num.fneg x) = x) (v : Cx S) : cconj num (cconj num v) = v := by
  rw [cconj, cconj, h]

theorem bitrev_bitrev {B : Build S V} {s : Fbu S V} {l : Nat} {x : Nat → Cx S} (hr : Ready s) (hl : HasLength B s l)
    (hx : Holds s l x) : ∃ u, runCommands B [.bitrev, .bitrev] s = .next u ∧ Holds u l x := by
  obtain ⟨hrun, -⟩ := (runsAs_bitrev B l).append (runsAs_bitrev B l) s hr hl
  refine ⟨_, hrun, fun i hi => (hx.revLoop.revLoop i hi).trans ?_⟩
  beta_reduce
  rw [brev_brev hi]

theorem conj_conj {B : Build S V} {s : Fbu S V} {l : Nat} {x : Nat → Cx S}
    (hneg : ∀ x, (B.numAt 0).fneg ((B.numAt 0).fneg x) = x) (hr : Ready s) (hl : HasLength B s l) (hx : Holds s l x) :
    ∃ u, runCommands B [.conj, .conj] s = .next u ∧ Holds u l x := by
  obtain ⟨hrun, -⟩ := (runsAs_conj B l).append (runsAs_conj B l) s hr hl
  refine ⟨_, hrun, fun i hi => (hx.conjLoop.conjLoop i hi).trans ?_⟩
  beta_reduce
  rw [cconj_cconj hneg]

/-- The binary64 negation flips the sign bit, whatever the NaN policy (R74). -/
theorem fneg_fneg_b64 (p : Fin 21) (policy : NanPolicy) (x : Scalar) :
    ((build (Config.b64 p policy)).numAt 0).fneg (((build (Config.b64 p policy)).numAt 0).fneg x) = x := by
  cases policy <;> exact Binary64.fneg_fneg x

/-- Settles O26: bit reversal and the flip of a sign bit are involutions. -/
theorem permutationAndConjugationUndoThemselves : Obligations.PermutationAndConjugationUndoThemselves :=
  ⟨fun _ _ _ _ _ _ hr hl hx => bitrev_bitrev hr hl hx,
    fun p policy _ _ _ hr hl hx => conj_conj (fneg_fneg_b64 p policy) hr hl hx⟩

end Sys2Proof.Machine
end

section
/-!
PROOF. The in-place schedule as D0's recursion (`45_transform_commands.md` R133, R134): after stages `1 .. m` on the
bit-reversed frame, block `g` of `2^m` words holds the transform of every `2^(L−m)`-th sample, from number
`brev_(L−m)(g)` on.
-/

namespace Sys2Proof.Machine

variable {S : Type}

/-! A stage on a frame, pair by pair. -/

theorem frameStage_first (num : Num S) (tw : Nat → Nat → Cx S) {st a : Nat} (h : a.testBit (st - 1) = false)
    (x : Nat → Cx S) :
    frameStage num tw st x a = (BF (steady num) (x a) (x (pairSecond st a)) (tw (a % half st) st)).1 := by
  rw [frameStage, if_neg (by simp [h]), pairSecond]

theorem frameStage_second (num : Num S) (tw : Nat → Nat → Cx S) {st a : Nat} (h : a.testBit (st - 1) = false)
    (x : Nat → Cx S) :
    frameStage num tw st x (pairSecond st a) =
      (BF (steady num) (x a) (x (pairSecond st a)) (tw (a % half st) st)).2 := by
  have hset : (pairSecond st a).testBit (st - 1) = true := by
    rw [pairSecond, half, add_comm, Nat.testBit_two_pow_add_eq, h, Bool.not_false]
  have hpos : pairSecond st a % half st = a % half st := Nat.add_mod_right a (half st)
  have hfirst : pairSecond st a - half st = a := Nat.add_sub_cancel a (half st)
  rw [frameStage, if_pos hset, hpos, hfirst]

/-! The recursion. -/

/-- A block of stage `m + 1` is two neighbouring blocks of stage `m`, and its pairs join the two. -/
theorem pairSecond_of_block (m g k : Nat) : pairSecond (m + 1) (g * 2 ^ (m + 1) + k) = (2 * g + 1) * 2 ^ m + k := by
  rw [pairSecond, half, Nat.add_sub_cancel]
  ring

theorem testBit_block_first {m k : Nat} (hk : k < 2 ^ m) (g : Nat) : (g * 2 ^ (m + 1) + k).testBit m = false := by
  have hlt : k < 2 ^ (m + 1) := hk.trans (Nat.pow_lt_pow_succ one_lt_two)
  rw [mul_comm, Nat.testBit_two_pow_mul_add _ hlt, if_pos (Nat.lt_succ_self m), Nat.testBit_lt_two_pow hk]

theorem frameStages_block (num : Num S) (tw : Nat → Nat → Cx S) (x : Nat → Cx S) (m d g k : Nat) (hk : k < 2 ^ m) :
    frameStages num tw m (frameRev (m + d) x) (g * 2 ^ m + k) =
      fftRec num tw m (fun n => x (n * 2 ^ d + brev d g)) k := by
  induction m generalizing d g k with
  | zero =>
    obtain rfl : k = 0 := by omega
    simp [frameStages, frameRev, fftRec]
  | succ m ih =>
    -- the even samples of block `g` are those of block `2g` of stage `m`, the odd ones those of block `2g + 1`
    have heven : (fun n => x (2 * n * 2 ^ d + brev d g)) = fun n => x (n * 2 ^ (d + 1) + brev (d + 1) (2 * g)) := by
      funext n
      rw [brev_even]
      ring_nf
    have hodd : (fun n => x ((2 * n + 1) * 2 ^ d + brev d g)) =
        fun n => x (n * 2 ^ (d + 1) + brev (d + 1) (2 * g + 1)) := by
      funext n
      rw [brev_odd]
      ring_nf
    have hstart : g * 2 ^ (m + 1) = 2 * g * 2 ^ m := by ring
    rw [frameStages, fftRec, heven, hodd, show m + 1 + d = m + (d + 1) by omega]
    split
    · next hlow =>
      rw [frameStage_first num tw (testBit_block_first hlow g), pairSecond_of_block,
        block_mod_half (Nat.succ_pos m) hlow, hstart, ih _ _ _ hlow, ih _ _ _ hlow]
    · next hhigh =>
      have hlow : k - 2 ^ m < 2 ^ m := by rw [pow_succ] at hk; omega
      have hindex : g * 2 ^ (m + 1) + k = pairSecond (m + 1) (g * 2 ^ (m + 1) + (k - 2 ^ m)) := by
        rw [pairSecond, half, Nat.add_sub_cancel]
        omega
      rw [hindex, frameStage_second num tw (testBit_block_first hlow g), pairSecond_of_block,
        block_mod_half (Nat.succ_pos m) hlow, hstart, ih _ _ _ hlow, ih _ _ _ hlow]

/-- Settles O57: the whole frame is the one block of stage `L`. -/
theorem scheduleComputesTheRecursion : Obligations.ScheduleComputesTheRecursion := by
  intro S num tw l x k hk
  simpa [frameFft, brev] using frameStages_block num tw x l 0 0 k hk

theorem frameIfft_eq_ifftRef (num : Num S) (tw : Nat → Nat → Cx S) {l n : Nat} (x : Nat → Cx S) (hn : n < 2 ^ l) :
    frameIfft num tw l x n = ifftRef num tw l x n := by
  rw [frameIfft, ifftRef, scheduleComputesTheRecursion S num tw l _ n hn]

end Sys2Proof.Machine
end

section
/-!
PROOF. The loops of the commands on a frame that has been written, in a build that draws nothing: they leave a frame
that the frame before determines, and no free value is used.
-/

namespace Sys2Proof.Machine

variable {S V : Type} {B : Build S V} {s : Fbu S V} {l : Nat} {x : Nat → Cx S}

/-! No free value is used. -/

/-- The first `n` words have been written, and `k` free values have been drawn so far. -/
def Settled (n k : Nat) (s : Fbu S V) : Prop := s.free = k ∧ ∀ i, i < n → ∃ v, s.word i = some v

section settled

variable {n k : Nat}

theorem Settled.load {i : Nat} (h : Settled n k s) (hi : i < n) : Settled n k (s.load B i).2 := by
  obtain ⟨v, hv⟩ := h.2 i hi
  rwa [load_written hv]

theorem Settled.store (h : Settled n k s) (i : Nat) (v : Cx S) : Settled n k (s.store i v) := by
  refine ⟨h.1, fun j hj => ?_⟩
  rw [word_store]
  split
  · exact ⟨v, rfl⟩
  · exact h.2 j hj

theorem Settled.drawn (h : Settled n k s) (hd : B.draws = false) (ops : Nat) : Settled n k (s.drawn B ops) := by
  rwa [drawn_steady hd]

theorem Settled.forBelow {m : Nat} {body : Nat → Fbu S V → Fbu S V}
    (hbody : ∀ j, j < m → ∀ s, Settled n k s → Settled n k (body j s)) (h : Settled n k s) :
    Settled n k (forBelow m body s) := by
  induction m with
  | zero => exact h
  | succ m ih => exact hbody m (Nat.lt_succ_self m) _ (ih fun j hj => hbody j (by omega))

theorem Settled.conjLoop (h : Settled n k s) : Settled n k (conjLoop B n s) :=
  h.forBelow fun _ hj _ h => (h.load hj).store _ _

theorem Settled.scaleLoop (h : Settled n k s) (hd : B.draws = false) (l : Nat) : Settled n k (scaleLoop B n l s) :=
  h.forBelow fun _ hj _ h => ((h.load hj).drawn hd _).store _ _

end settled

theorem Settled.revLoop {k : Nat} (h : Settled (2 ^ l) k s) : Settled (2 ^ l) k (revLoop B (2 ^ l) l s) := by
  refine h.forBelow fun j hj s h => ?_
  unfold revBody
  split
  · exact (((h.load hj).load (brev_lt l j)).store _ _).store _ _
  · exact h

theorem Settled.stageLoop {k st : Nat} (h : Settled (2 ^ l) k s) (hd : B.draws = false)
    (hs : legalStage l st = true) : Settled (2 ^ l) k (stageLoop B (2 ^ l) st s) := by
  refine h.forBelow fun j hj s h => ?_
  have hfirst := legalFirst_pairFirst hs hj
  exact ((((h.load (legalFirst_iff.1 hfirst).1).load (pairSecond_lt hs hfirst)).drawn hd _).store _ _).store _ _

theorem Holds.settled (h : Holds s l x) : Settled (2 ^ l) s.free s := ⟨rfl, fun i hi => ⟨x i, h i hi⟩⟩

/-! The contents. -/

theorem numsFrom_steady (hd : B.draws = false) (n : Nat) : numsFrom B n = steady (B.numAt 0) :=
  funext fun _ => numAt_steady hd _

theorem Holds.scaleLoop (h : Holds s l x) (hd : B.draws = false) :
    Holds (scaleLoop B (2 ^ l) l s) l fun i => cscale (steady (B.numAt 0)) (x i) l := by
  intro i hi
  obtain ⟨y, n, hy, hword⟩ := scaleLoop_word B l hi s
  rw [hword, hy _ (h i hi), numsFrom_steady hd]

/-- Every word is the first or the second of a pair, and its pair is combined as it was before the loop. -/
theorem Holds.stageLoop {st : Nat} (h : Holds s l x) (hd : B.draws = false) (hs : legalStage l st = true) :
    Holds (stageLoop B (2 ^ l) st s) l (frameStage (B.numAt 0) (tw B) st x) := by
  have hpair {j : Nat} (hj : j < 2 ^ l / 2) :
      (Machine.stageLoop B (2 ^ l) st s).word (pairFirst st j) =
          some (frameStage (B.numAt 0) (tw B) st x (pairFirst st j)) ∧
        (Machine.stageLoop B (2 ^ l) st s).word (pairSecond st (pairFirst st j)) =
          some (frameStage (B.numAt 0) (tw B) st x (pairSecond st (pairFirst st j))) := by
    have hlegal := legalFirst_pairFirst hs hj
    obtain ⟨hlt, hclear⟩ := legalFirst_iff_testBit.1 hlegal
    obtain ⟨e, o, n, he, ho, hfirst, hsecond⟩ := stageLoop_words B hs hj s
    rw [numsFrom_steady hd, he _ (h _ hlt), ho _ (h _ (pairSecond_lt hs hlegal))] at hfirst hsecond
    rw [frameStage_first _ _ hclear, frameStage_second _ _ hclear]
    exact ⟨hfirst, hsecond⟩
  intro i hi
  cases hbit : i.testBit (st - 1) with
  | false =>
    obtain ⟨j, hj, rfl⟩ := exists_pairFirst hs (legalFirst_iff_testBit.2 ⟨hi, hbit⟩)
    exact (hpair hj).1
  | true =>
    obtain ⟨j, hj, rfl⟩ := exists_pairSecond hs hi hbit
    exact (hpair hj).2

/-! The frames of the loops: no other word is touched. -/

theorem conjLoop_touches_frame (B : Build S V) (n : Nat) (s : Fbu S V) : Touches (· < n) s (conjLoop B n s) :=
  forBelow_touches_below (cnjBody_touches B) s

theorem stages_touch_frame (B : Build S V) {m : Nat} (hm : m ≤ l) (s : Fbu S V) :
    Touches (· < 2 ^ l) s (forBelow m (fun k => stageLoop B (2 ^ l) (k + 1)) s) :=
  forBelow_touches (fun k hk => stageLoop_touches_frame B (legalStage_iff.2 ⟨Nat.succ_pos k, by omega⟩)) s

theorem fftLoops_touch_frame (B : Build S V) (l : Nat) (s : Fbu S V) :
    Touches (· < 2 ^ l) s (fftLoops B (2 ^ l) l s) :=
  ((revLoop_touches B l s).mono fun _ h => h.1).trans (stages_touch_frame B le_rfl _)

/-! Contents, frame and free values together. -/

/-- `t` is `s` with nothing but the frame changed, and the frame of `t` is `y`. -/
structure LeavesFrame (l : Nat) (y : Nat → Cx S) (s t : Fbu S V) : Prop where
  touches : Touches (· < 2 ^ l) s t
  free : t.free = s.free
  holds : Holds t l y

theorem LeavesFrame.trans {y z : Nat → Cx S} {t u : Fbu S V} (h : LeavesFrame l y s t) (k : LeavesFrame l z t u) :
    LeavesFrame l z s u :=
  ⟨h.touches.trans k.touches, k.free.trans h.free, k.holds⟩

theorem LeavesFrame.congr {y z : Nat → Cx S} {t : Fbu S V} (h : LeavesFrame l y s t)
    (hyz : ∀ i, i < 2 ^ l → y i = z i) : LeavesFrame l z s t :=
  ⟨h.touches, h.free, fun i hi => (h.holds i hi).trans (congrArg some (hyz i hi))⟩

/-- What a command's statement says of the state it ends in. -/
theorem LeavesFrame.atRest {y : Nat → Cx S} {t : Fbu S V} (h : LeavesFrame l y s t) :
    { t with seq := Seq.rest } = { s with xmem := t.xmem, seq := Seq.rest } ∧
      (∀ i, i < 2 ^ l → t.word i = some (y i)) ∧ ∀ i, 2 ^ l ≤ i → t.word i = s.word i := by
  have hframe : t = { s with xmem := t.xmem } := h.touches.eq_frame.trans (by rw [h.free])
  exact ⟨congrArg (fun t : Fbu S V => { t with seq := Seq.rest }) hframe, h.holds,
    fun i hi => h.touches.word i (not_lt.2 hi)⟩

theorem conjLoop_leavesFrame (hx : Holds s l x) :
    LeavesFrame l (fun i => cconj (B.numAt 0) (x i)) s (conjLoop B (2 ^ l) s) :=
  ⟨conjLoop_touches_frame B _ s, hx.settled.conjLoop.1, hx.conjLoop⟩

theorem scaleLoop_leavesFrame (hd : B.draws = false) (hx : Holds s l x) :
    LeavesFrame l (fun i => cscale (steady (B.numAt 0)) (x i) l) s (scaleLoop B (2 ^ l) l s) :=
  ⟨forBelow_touches_below (sclBody_touches B l) s, (hx.settled.scaleLoop hd l).1, hx.scaleLoop hd⟩

theorem revLoop_leavesFrame (hx : Holds s l x) : LeavesFrame l (frameRev l x) s (revLoop B (2 ^ l) l s) :=
  ⟨(revLoop_touches B l s).mono fun _ h => h.1, hx.settled.revLoop.1, hx.revLoop⟩

theorem stageLoop_leavesFrame {st : Nat} (hd : B.draws = false) (hs : legalStage l st = true) (hx : Holds s l x) :
    LeavesFrame l (frameStage (B.numAt 0) (tw B) st x) s (stageLoop B (2 ^ l) st s) :=
  ⟨stageLoop_touches_frame B hs s, (hx.settled.stageLoop hd hs).1, hx.stageLoop hd hs⟩

theorem stages_leaveFrame {m : Nat} (hd : B.draws = false) (hm : m ≤ l) (hx : Holds s l x) :
    LeavesFrame l (frameStages (B.numAt 0) (tw B) m x) s (forBelow m (fun k => stageLoop B (2 ^ l) (k + 1)) s) := by
  induction m with
  | zero => exact ⟨Touches.refl _ s, rfl, hx⟩
  | succ m ih =>
    have hbefore := ih (by omega)
    exact hbefore.trans (stageLoop_leavesFrame hd (legalStage_iff.2 ⟨Nat.succ_pos m, hm⟩) hbefore.holds)

theorem fftLoops_leaveFrame (hd : B.draws = false) (hx : Holds s l x) :
    LeavesFrame l (frameFft (B.numAt 0) (tw B) l x) s (fftLoops B (2 ^ l) l s) :=
  (revLoop_leavesFrame hx).trans (stages_leaveFrame hd le_rfl (revLoop_leavesFrame hx).holds)

theorem ifftLoops_leaveFrame (hd : B.draws = false) (hx : Holds s l x) :
    LeavesFrame l (frameIfft (B.numAt 0) (tw B) l x) s (ifftLoops B (2 ^ l) l s) := by
  have hconj := conjLoop_leavesFrame (B := B) hx
  have hfft := hconj.trans (fftLoops_leaveFrame hd hconj.holds)
  have hback := hfft.trans (conjLoop_leavesFrame (B := B) hfft.holds)
  exact hback.trans (scaleLoop_leavesFrame hd hback.holds)

end Sys2Proof.Machine
end

section
/-!
PROOF. The transform commands `FFT` and `IFFT` (`45_transform_commands.md` R130 to R134): their engine steps are their
loops, phase by phase (`48_sequencer_microsteps.md` R171 to R177).
-/

namespace Sys2Proof.Machine

variable {S V : Type} {B : Build S V} {s : Fbu S V} {l : Nat}

/-! Acceptance. -/

theorem execOf_fft (hr : Ready s) (hl : HasLength B s l) : execOf B .fft s = started s .rev .fft 0 := by
  rw [execOf, fftOf, guarded_runs hr hl]

theorem execOf_ifft (hr : Ready s) (hl : HasLength B s l) : execOf B .ifft s = started s .cnj1 .ifft 0 := by
  rw [execOf, ifftOf, guarded_runs hr hl]

/-! The engine steps as loops. -/

theorem engineRun_trans {k m : Nat} {s t : Fbu S V} {o : Out S V} (h : engineRun B k s = .next t)
    (h' : engineRun B m t = o) : engineRun B (k + m) s = o := by
  induction k generalizing s with
  | zero => cases h; rwa [Nat.zero_add]
  | succ k ih =>
    rw [engineRun] at h
    rw [Nat.succ_add, engineRun]
    cases hs : engineStep B s with
    | next u => rw [hs] at h; exact ih h
    | fault f => rw [hs] at h; cases h
    | refused r => rw [hs] at h; cases h

/-- The `N` steps of a phase of words are its loop, whichever command it belongs to. -/
theorem engineRun_words {p : Phase} {m : Mac} {fin : Seq} (hl : HasLength B s l) (hp : p ≠ .bfy)
    (hend : phaseEnd l { phase := p, mac := m, s := 0, j := 0 } = some fin) :
    engineRun B (2 ^ l) { s with seq := { phase := p, mac := m, s := 0, j := 0 } } =
      .next { phaseLoop B l { phase := p, mac := m, s := 0, j := 0 } (2 ^ l) s with seq := fin } := by
  have hlen : phaseLength (2 ^ l) { phase := p, mac := m, s := 0, j := 0 } = 2 ^ l := if_neg hp
  have hrun := engineRun_wholePhase hl rfl (seqRuns_words rfl hp (by rw [hend]; rfl)).1 hend
  rwa [hlen] at hrun

theorem HasLength.touches {P : Nat → Prop} {t : Fbu S V} (hl : HasLength B s l) (h : Touches P s t) : HasLength B t l :=
  ⟨(len_congr h.nlen).trans hl.1, hl.2⟩

/-- What follows the stages of a transform (R176). -/
def afterStages : Mac → Seq
  | .ifft => { phase := .cnj2, mac := .ifft, s := 0, j := 0 }
  | _ => Seq.rest

/-- The start of stage `st` of a transform, or what follows the last stage (R176). -/
def stageStart (l : Nat) (m : Mac) (st : Nat) : Seq :=
  if st ≤ l then { phase := .bfy, mac := m, s := st, j := 0 } else afterStages m

theorem phaseEnd_rev {m : Mac} (hm : m ≠ .none) :
    phaseEnd l { phase := .rev, mac := m, s := 0, j := 0 } = some (stageStart l m 1) := by
  cases m with
  | none => exact absurd rfl hm
  | fft | ifft => rfl

theorem phaseEnd_bfy {m : Mac} (hm : m ≠ .none) (st : Nat) :
    phaseEnd l { phase := .bfy, mac := m, s := st, j := 0 } = some (stageStart l m (st + 1)) := by
  cases m with
  | none => exact absurd rfl hm
  | fft | ifft => rfl

theorem engineRun_stages {m : Mac} {c : Nat} (hm : m ≠ .none) (hc : c ≤ l) (hl : HasLength B s l) :
    engineRun B (c * (2 ^ l / 2)) { s with seq := stageStart l m 1 } =
      .next { forBelow c (fun k => stageLoop B (2 ^ l) (k + 1)) s with seq := stageStart l m (c + 1) } := by
  induction c with
  | zero => rw [Nat.zero_mul]; rfl
  | succ c ih =>
    have hs := legalStage_iff.2 ⟨Nat.succ_pos c, hc⟩
    have hl' := hl.touches (stages_touch_frame B (by omega : c ≤ l) s)
    rw [Nat.succ_mul]
    refine engineRun_trans (ih (by omega)) ?_
    rw [stageStart, if_pos hc]
    exact engineRun_wholePhase hl' rfl (seqRuns_stage rfl m hs).1 (phaseEnd_bfy hm (c + 1))

/-- The permutation and the stages of a transform, whichever of the two it is. -/
theorem engineRun_fftLoops {m : Mac} (hm : m ≠ .none) (hl : HasLength B s l) :
    engineRun B (2 ^ l + l * (2 ^ l / 2)) { s with seq := { phase := .rev, mac := m, s := 0, j := 0 } } =
      .next { fftLoops B (2 ^ l) l s with seq := afterStages m } := by
  have hlast : stageStart l m (l + 1) = afterStages m := if_neg (Nat.not_succ_le_self l)
  have hstages := engineRun_stages hm le_rfl (hl.touches (revLoop_touches B l s))
  rw [hlast] at hstages
  exact engineRun_trans (engineRun_words hl (by decide) (phaseEnd_rev hm)) hstages

theorem engineRun_fft (hl : HasLength B s l) :
    engineRun B (2 ^ l + l * (2 ^ l / 2)) { s with seq := { phase := .rev, mac := .fft, s := 0, j := 0 } } =
      .next { fftLoops B (2 ^ l) l s with seq := Seq.rest } :=
  engineRun_fftLoops (by decide) hl

theorem engineRun_ifft (hl : HasLength B s l) :
    engineRun B (4 * 2 ^ l + l * (2 ^ l / 2)) { s with seq := { phase := .cnj1, mac := .ifft, s := 0, j := 0 } } =
      .next { ifftLoops B (2 ^ l) l s with seq := Seq.rest } := by
  have hl₁ := hl.touches (conjLoop_touches_frame B (2 ^ l) s)
  have hl₂ := hl₁.touches (fftLoops_touch_frame B l _)
  have hl₃ := hl₂.touches (conjLoop_touches_frame B (2 ^ l) _)
  rw [show 4 * 2 ^ l + l * (2 ^ l / 2) = 2 ^ l + (2 ^ l + l * (2 ^ l / 2) + (2 ^ l + 2 ^ l)) by ring]
  exact engineRun_trans (engineRun_words hl (by decide) rfl) <|
    engineRun_trans (engineRun_fftLoops (by decide) hl₁) <|
    engineRun_trans (engineRun_words hl₂ (by decide) rfl) (engineRun_words hl₃ (by decide) rfl)

/-! The commands on a written frame, in any build that draws nothing. -/

/-- The command is accepted, and after `steps` engine steps the FBU is idle, the frame of length `2^L` holds `y` and
nothing else has changed. -/
def Computes (B : Build S V) (cmd : Instr) (steps l : Nat) (y : Nat → Cx S) (s : Fbu S V) : Prop :=
  ∃ t u, execOf B cmd s = .next t ∧ engineRun B steps t = .next u ∧
    u = { s with xmem := u.xmem, seq := Seq.rest } ∧
    (∀ i, i < 2 ^ l → u.word i = some (y i)) ∧ ∀ i, 2 ^ l ≤ i → u.word i = s.word i

theorem fft_computes_fftRec {x : Nat → Cx S} (hr : Ready s) (hl : HasLength B s l) (hd : B.draws = false)
    (hx : Holds s l x) :
    Computes B .fft (2 ^ l + l * (2 ^ l / 2)) l (fftRec (B.numAt 0) (tw B) l x) s :=
  ⟨_, _, execOf_fft hr hl, engineRun_fft hl,
    ((fftLoops_leaveFrame hd hx).congr fun i hi => scheduleComputesTheRecursion _ _ _ l x i hi).atRest⟩

theorem ifft_computes_ifftRef {x : Nat → Cx S} (hr : Ready s) (hl : HasLength B s l) (hd : B.draws = false)
    (hx : Holds s l x) :
    Computes B .ifft (4 * 2 ^ l + l * (2 ^ l / 2)) l (ifftRef (B.numAt 0) (tw B) l x) s :=
  ⟨_, _, execOf_ifft hr hl, engineRun_ifft hl,
    ((ifftLoops_leaveFrame hd hx).congr fun _ hi => frameIfft_eq_ifftRef _ _ x hi).atRest⟩

/-- Settles O21: the engine runs the loops of `FFT`, which are the schedule, which is the recursion. -/
theorem fftComputesTheRecursiveTransform : Obligations.FftComputesTheRecursiveTransform := by
  intro c s l x hr hl hd hx
  obtain ⟨t, u, hexec, hresult⟩ := fft_computes_fftRec hr hl hd hx
  exact ⟨t, u, exec_next hexec, hresult⟩

/-- Settles O22: the engine runs the four passes of `IFFT` around the schedule. -/
theorem ifftComputesTheInverseTransform : Obligations.IfftComputesTheInverseTransform := by
  intro c s l x hr hl hd hx
  obtain ⟨t, u, hexec, hresult⟩ := ifft_computes_ifftRef hr hl hd hx
  exact ⟨t, u, exec_next hexec, hresult⟩

end Sys2Proof.Machine
end

section
/-!
PROOF. D0's recursion (`46_reference_transforms_and_properties.md` R142) in any numerics record: what every butterfly of
the stages up to `L` keeps of the samples holds of the spectrum, and no other twiddle is used.
-/

namespace Sys2Proof.Machine

variable {S : Type} {num : Num S} {tw tw' : Nat → Nat → Cx S} {l : Nat}

/-- The two halves of a block: the words below `2^L`, and `2^L` further. -/
theorem forall_lt_two_pow_succ {P : Nat → Prop} (h : ∀ j, j < 2 ^ l → P j ∧ P (j + 2 ^ l)) :
    ∀ k, k < 2 ^ (l + 1) → P k := by
  intro k hk
  rcases lt_or_ge k (2 ^ l) with hlow | hhigh
  · exact (h k hlow).1
  · rw [← Nat.sub_add_cancel hhigh]
    exact (h (k - 2 ^ l) (by rw [pow_succ] at hk; omega)).2

theorem fftRec_first (num : Num S) (tw : Nat → Nat → Cx S) (x : Nat → Cx S) {k : Nat} (hk : k < 2 ^ l) :
    fftRec num tw (l + 1) x k = (BF (steady num) (fftRec num tw l (fun n => x (2 * n)) k)
      (fftRec num tw l (fun n => x (2 * n + 1)) k) (tw k (l + 1))).1 := if_pos hk

theorem fftRec_second (num : Num S) (tw : Nat → Nat → Cx S) (x : Nat → Cx S) (k : Nat) :
    fftRec num tw (l + 1) x (k + 2 ^ l) = (BF (steady num) (fftRec num tw l (fun n => x (2 * n)) k)
      (fftRec num tw l (fun n => x (2 * n + 1)) k) (tw k (l + 1))).2 := by
  rw [fftRec, if_neg (Nat.le_add_left _ _).not_gt, Nat.add_sub_cancel]

theorem fftRec_keeps {P : Cx S → Prop}
    (hBF : ∀ k st, 1 ≤ st → st ≤ l → k < half st → ∀ e o, P e → P o →
      P (BF (steady num) e o (tw k st)).1 ∧ P (BF (steady num) e o (tw k st)).2)
    {x : Nat → Cx S} (hx : ∀ i, i < 2 ^ l → P (x i)) : ∀ k, k < 2 ^ l → P (fftRec num tw l x k) := by
  induction l generalizing x with
  | zero => exact hx
  | succ l ih =>
    have hstages := fun k st h1 (hst : st ≤ l) => hBF k st h1 (Nat.le_succ_of_le hst)
    have heven := ih hstages (x := fun n => x (2 * n)) fun i hi => hx _ (by rw [pow_succ]; omega)
    have hodd := ih hstages (x := fun n => x (2 * n + 1)) fun i hi => hx _ (by rw [pow_succ]; omega)
    refine forall_lt_two_pow_succ fun j hj => ?_
    rw [fftRec_first num tw x hj, fftRec_second]
    exact hBF j (l + 1) (Nat.succ_pos l) le_rfl hj _ _ (heven j hj) (hodd j hj)

theorem fftRec_congr_tw (h : ∀ k st, 1 ≤ st → st ≤ l → k < half st → tw k st = tw' k st) (x : Nat → Cx S) :
    ∀ k, k < 2 ^ l → fftRec num tw l x k = fftRec num tw' l x k := by
  induction l generalizing x with
  | zero => exact fun _ _ => rfl
  | succ l ih =>
    have hstages := fun k st h1 (hst : st ≤ l) => h k st h1 (Nat.le_succ_of_le hst)
    refine forall_lt_two_pow_succ fun j hj => ?_
    simp only [fftRec_first _ _ x hj, fftRec_second, ih hstages _ j hj, h j (l + 1) (Nat.succ_pos l) le_rfl hj,
      and_self]

theorem ifftRef_congr_tw (h : ∀ k st, 1 ≤ st → st ≤ l → k < half st → tw k st = tw' k st) (x : Nat → Cx S) {n : Nat}
    (hn : n < 2 ^ l) : ifftRef num tw l x n = ifftRef num tw' l x n := by
  rw [ifftRef, fftRec_congr_tw h _ n hn, ifftRef]

end Sys2Proof.Machine
end

section
/-!
PROOF. Frames of zeros in binary64 (`46_reference_transforms_and_properties.md` R153): sums of zeros, and products of a
zero with the finite twiddle factors, are zeros (`40_numeric_datapath.md` R73, R74).
-/

namespace Sys2Proof.Machine.Binary64

variable {nan x y : Scalar}

theorem isFinite_of_isZero (h : isZero x = true) : isFinite x = true :=
  isFinite_iff.2 (by rw [isZero_iff.1 h]; decide)

theorem value_of_isZero (h : isZero x = true) : value x = 0 := by
  rw [value, mag_eq, isZero_iff.1 h, magLow_zero]
  simp

theorem isZero_fneg (x : Scalar) : isZero (fneg x) = isZero x := by
  simp only [isZero, expo_eq, frac_eq, low_fneg]

theorem isZero_fadd (hx : isZero x = true) (hy : isZero y = true) : isZero (fadd nan x y) = true := by
  rw [fadd_finite (isFinite_of_isZero hx) (isFinite_of_isZero hy), value_of_isZero hx, value_of_isZero hy,
    if_pos (add_zero 0), zeroSum_eq]
  exact isZero_zero _

theorem isZero_fsub (hx : isZero x = true) (hy : isZero y = true) : isZero (fsub nan x y) = true := by
  rw [fsub_eq_fadd]
  exact isZero_fadd hx ((isZero_fneg y).trans hy)

theorem isZero_fmul (hx : isFinite x = true) (hy : isZero y = true) : isZero (fmul nan x y) = true := by
  rw [fmul_finite hx (isFinite_of_isZero hy), hy, Bool.or_true, if_pos rfl]
  exact isZero_zero _

theorem isZero_fdivN (hx : isZero x = true) (l : Nat) : isZero (fdivN nan x l) = true := by
  rwa [fdivN_finite (isFinite_of_isZero hx), if_pos hx]

/-- Both components of a word are zeros, of either sign. -/
def IsZeroWord (z : CWord) : Prop := isZero z.re = true ∧ isZero z.im = true

/-- Both components of a word are finite. -/
def IsFiniteWord (z : CWord) : Prop := isFinite z.re = true ∧ isFinite z.im = true

variable {e o w z : CWord}

theorem IsZeroWord.cconj (h : IsZeroWord z) : IsZeroWord (cconj (num nan) z) := ⟨h.1, (isZero_fneg _).trans h.2⟩

theorem IsZeroWord.cscale (h : IsZeroWord z) (l : Nat) : IsZeroWord (cscale (steady (num nan)) z l) :=
  ⟨isZero_fdivN h.1 l, isZero_fdivN h.2 l⟩

theorem IsZeroWord.cmul (ho : IsZeroWord o) (hw : IsFiniteWord w) : IsZeroWord (cmul (steady (num nan)) w o) :=
  ⟨isZero_fsub (isZero_fmul hw.1 ho.1) (isZero_fmul hw.2 ho.2),
    isZero_fadd (isZero_fmul hw.1 ho.2) (isZero_fmul hw.2 ho.1)⟩

theorem IsZeroWord.butterfly (he : IsZeroWord e) (hw : IsFiniteWord w) (ho : IsZeroWord o) :
    IsZeroWord (BF (steady (num nan)) e o w).1 ∧ IsZeroWord (BF (steady (num nan)) e o w).2 := by
  have ht := ho.cmul (nan := nan) hw
  exact ⟨⟨isZero_fadd he.1 ht.1, isZero_fadd he.2 ht.2⟩, ⟨isZero_fsub he.1 ht.1, isZero_fsub he.2 ht.2⟩⟩

end Sys2Proof.Machine.Binary64

namespace Sys2Proof.Machine

open Binary64

theorem isFiniteWord_tw {V : Type} {B : Build Scalar V}
    (hrom : ∀ j, j < 2 ^ (B.logNMax - 1) → B.rom j = romB64 B.logNMax j) {k st : Nat} (h1 : 1 ≤ st)
    (hst : st ≤ B.logNMax) (hk : k < half st) : IsFiniteWord (tw B k st) := by
  have hdepth : B.logNMax ≤ 21 := B.logNMaxPred.isLt
  rw [tw_of_dependsOnFraction romB64_dependsOnFraction hrom h1 hst hk]
  obtain ⟨q, rfl⟩ : ∃ q, st = q + 1 := Nat.exists_eq_add_one.2 h1
  have hhalf : k < 2 ^ (q + 1) / 2 := by rwa [pow_succ, Nat.mul_div_cancel _ two_pos]
  obtain ⟨hre, him, -⟩ := (romB64_symmetries (by omega : q < 21) k).2 hhalf
  exact ⟨hre, him⟩

/-- The four passes of the inverse keep zeros. -/
theorem isZeroWord_ifftRef (nan : Scalar) {tw : Nat → Nat → CWord} {l : Nat} {x : Nat → CWord}
    (htw : ∀ k st, 1 ≤ st → st ≤ l → k < half st → IsFiniteWord (tw k st))
    (hx : ∀ i, i < 2 ^ l → IsZeroWord (x i)) {i : Nat} (hi : i < 2 ^ l) :
    IsZeroWord (ifftRef (Binary64.num nan) tw l x i) := by
  have hconj : ∀ k, k < 2 ^ l → IsZeroWord (cconj (Binary64.num nan) (x k)) := fun k hk => (hx k hk).cconj
  have hfft := fftRec_keeps (num := Binary64.num nan)
    (fun k st h1 hst hk _ _ he ho => he.butterfly (htw k st h1 hst hk) ho) hconj
  exact (hfft i hi).cconj.cscale l

theorem numAt_b64 (p : Fin 21) (policy : NanPolicy) (n : Nat) :
    ∃ nan, (build (Config.b64 p policy)).numAt n = Binary64.num nan := by
  cases policy with
  | canonical => exact ⟨_, rfl⟩
  | draw => exact ⟨_, rfl⟩

/-- Settles O50: the butterflies keep zeros because every twiddle factor is finite. -/
theorem inverseOfZerosIsZeros : Obligations.InverseOfZerosIsZeros := by
  intro p policy l x B hl hx i hi
  obtain ⟨nan, hnum⟩ := numAt_b64 p policy 0
  rw [hnum]
  exact isZeroWord_ifftRef nan (fun k st h1 hst => isFiniteWord_tw (fun _ _ => rfl) h1 (hst.trans hl)) hx hi

end Sys2Proof.Machine
end

section
/-!
PROOF. The naive transforms (`46_reference_transforms_and_properties.md` R140, R141, R144) in powers of the primitive
root `exp(−2πi/N)`: orthogonality, the two inversions, Parseval's identity, and the split into even and odd samples.
-/

namespace Sys2Proof.Machine.Exact

open Finset ComplexConjugate

/-- `W = exp(−2πi/N)`, the primitive root of R145. -/
noncomputable def root (n : Nat) : ℂ := Complex.exp (-(2 * Real.pi * Complex.I / n))

variable {n : Nat} {x : Nat → ℂ}

theorem root_ne_zero (n : Nat) : root n ≠ 0 := Complex.exp_ne_zero _

theorem root_pow (n m : Nat) : root n ^ m = Complex.exp (-2 * Real.pi * Complex.I * m / n) := by
  rw [root, ← Complex.exp_nat_mul]
  congr 1
  ring

theorem root_isPrimitive (hn : n ≠ 0) : IsPrimitiveRoot (root n) n := by
  rw [root, Complex.exp_neg]
  exact (Complex.isPrimitiveRoot_exp n hn).inv

theorem root_pow_length (hn : n ≠ 0) : root n ^ n = 1 := (root_isPrimitive hn).pow_eq_one

/-- `W` is on the unit circle. -/
theorem conj_root_pow (n m : Nat) : conj (root n ^ m) = (root n ^ m)⁻¹ := by
  rw [root_pow, ← Complex.exp_neg, ← Complex.exp_conj]
  congr 1
  simp [neg_div, map_ofNat]

theorem root_two_mul_sq (n : Nat) : root (2 * n) ^ 2 = root n := by
  rw [root_pow, root]
  congr 1
  push_cast
  field_simp

theorem root_two_mul_pow (hn : n ≠ 0) : root (2 * n) ^ n = -1 := by
  have hn' : (n : ℂ) ≠ 0 := Nat.cast_ne_zero.2 hn
  rw [root_pow, ← Complex.exp_neg_pi_mul_I]
  congr 1
  push_cast
  field_simp

/-! The naive sums in powers of the root. -/

theorem dft_eq (n : Nat) (x : Nat → ℂ) (k : Nat) : dft n x k = ∑ m ∈ range n, x m * root n ^ (k * m) := by
  refine sum_congr rfl fun m _ => ?_
  rw [root_pow]
  push_cast
  ring_nf

theorem idft_eq (n : Nat) (x : Nat → ℂ) (m : Nat) :
    idft n x m = 1 / n * ∑ k ∈ range n, x k * (root n ^ (k * m))⁻¹ := by
  rw [idft]
  congr 1
  refine sum_congr rfl fun k _ => ?_
  rw [root_pow, ← Complex.exp_neg]
  push_cast
  ring_nf

theorem dft_congr {y : Nat → ℂ} (h : ∀ m, m < n → x m = y m) (k : Nat) : dft n x k = dft n y k :=
  sum_congr rfl fun m hm => by rw [h m (mem_range.1 hm)]

theorem idft_congr {y : Nat → ℂ} (h : ∀ k, k < n → x k = y k) (m : Nat) : idft n x m = idft n y m :=
  congrArg (1 / (n : ℂ) * ·) (sum_congr rfl fun k hk => by rw [h k (mem_range.1 hk)])

theorem dft_zero (n : Nat) (x : Nat → ℂ) : dft n x 0 = ∑ m ∈ range n, x m := by
  simp [dft_eq]

theorem dft_const_mul (n : Nat) (a : ℂ) (x : Nat → ℂ) (k : Nat) : dft n (fun m => a * x m) k = a * dft n x k := by
  simp only [dft, mul_sum, mul_assoc]

theorem dft_linear (n : Nat) (a b : ℂ) (x y : Nat → ℂ) (k : Nat) :
    dft n (fun m => a * x m + b * y m) k = a * dft n x k + b * dft n y k := by
  simp only [dft, add_mul, sum_add_distrib, mul_sum, mul_assoc]

/-- R146's conjugate identity. -/
theorem conj_dft_conj (n : Nat) (x : Nat → ℂ) (m : Nat) :
    conj (dft n (fun k => conj (x k)) m) / n = idft n x m := by
  rw [dft_eq, idft_eq, map_sum, div_eq_inv_mul, one_div]
  congr 1
  refine sum_congr rfl fun k _ => ?_
  rw [map_mul, Complex.conj_conj, conj_root_pow, mul_comm m k]

/-- R152's symmetry of the spectrum of a real sequence. -/
theorem dft_length_sub {k : Nat} (hx : ∀ m, m < n → conj (x m) = x m) (hk : k < n) :
    dft n x (n - k) = conj (dft n x k) := by
  rw [dft_eq, dft_eq, map_sum]
  refine sum_congr rfl fun m hm => ?_
  have hturn : root n ^ ((n - k) * m) * root n ^ (k * m) = 1 := by
    rw [← pow_add, ← Nat.add_mul, Nat.sub_add_cancel hk.le, pow_mul, root_pow_length (by omega), one_pow]
  rw [map_mul, hx m (mem_range.1 hm), conj_root_pow, eq_inv_of_mul_eq_one_left hturn]

/-! Orthogonality (R144) and what follows from it. -/

/-- R144: the transform of one harmonic. -/
theorem dft_harmonic {a b : Nat} (ha : a < n) (hb : b < n) :
    dft n (fun k => (root n ^ (k * b))⁻¹) a = if a = b then (n : ℂ) else 0 := by
  have hn : n ≠ 0 := by omega
  have hterm : ∀ k, (root n ^ (k * b))⁻¹ * root n ^ (a * k) = (root n ^ a / root n ^ b) ^ k := fun k => by
    rw [mul_comm k b, pow_mul, pow_mul, div_pow, div_eq_inv_mul]
  simp only [dft_eq, hterm]
  split
  next hab => simp [hab, root_ne_zero]
  next hab =>
    have hne : root n ^ a / root n ^ b ≠ 1 := fun h =>
      hab ((root_isPrimitive hn).pow_inj ha hb ((div_eq_one_iff_eq (pow_ne_zero b (root_ne_zero n))).1 h))
    have hpow : (root n ^ a / root n ^ b) ^ n = 1 := by
      rw [div_pow, pow_right_comm, root_pow_length hn, pow_right_comm, root_pow_length hn, one_pow, one_pow, div_one]
    have hgeom := mul_geom_sum (root n ^ a / root n ^ b) n
    rw [hpow, sub_self] at hgeom
    exact (mul_eq_zero.1 hgeom).resolve_left (sub_ne_zero.2 hne)

/-- The transform is symmetric: under a sum of products it moves to the other factor. -/
theorem sum_dft_mul (n : Nat) (x y : Nat → ℂ) : ∑ k ∈ range n, dft n x k * y k = ∑ m ∈ range n, x m * dft n y m := by
  simp only [dft_eq, sum_mul, mul_sum]
  rw [sum_comm]
  refine sum_congr rfl fun m _ => sum_congr rfl fun k _ => ?_
  rw [mul_comm k m]
  ring

/-- The sequence is its spectrum inverted, since its harmonics are orthogonal (R144). -/
theorem idft_dft {m : Nat} (hm : m < n) : idft n (dft n x) m = x m := by
  have hn : (n : ℂ) ≠ 0 := Nat.cast_ne_zero.2 (by omega)
  have hpick : ∑ j ∈ range n, x j * dft n (fun k => (root n ^ (k * m))⁻¹) j = x m * n := by
    rw [sum_eq_single_of_mem m (mem_range.2 hm), dft_harmonic hm hm, if_pos rfl]
    intro j hj hne
    rw [dft_harmonic (mem_range.1 hj) hm, if_neg hne, mul_zero]
  rw [idft_eq, sum_dft_mul, hpick, mul_left_comm, one_div_mul_cancel hn, mul_one]

/-- R146's identity turned round: the transform of a conjugate. -/
theorem dft_conj {k : Nat} (hk : k < n) (x : Nat → ℂ) : dft n (fun m => conj (x m)) k = n * conj (idft n x k) := by
  have hn : (n : ℂ) ≠ 0 := Nat.cast_ne_zero.2 (by omega)
  rw [← conj_dft_conj, map_div₀, Complex.conj_conj, Complex.conj_natCast, mul_div_cancel₀ _ hn]

/-- The other inversion, by conjugation. -/
theorem dft_idft {k : Nat} (hk : k < n) : dft n (idft n x) k = x k := by
  have hn : (n : ℂ) ≠ 0 := Nat.cast_ne_zero.2 (by omega)
  have hconj : idft n x = fun m => 1 / n * conj (dft n (fun j => conj (x j)) m) := by
    funext m
    rw [← conj_dft_conj, div_eq_inv_mul, one_div]
  rw [hconj, dft_const_mul, dft_conj hk, idft_dft hk, Complex.conj_conj, ← mul_assoc, one_div_mul_cancel hn, one_mul]

/-- R150: one of the two transforms is moved across and becomes an inverse. -/
theorem sum_normSq_dft (n : Nat) (x : Nat → ℂ) :
    ∑ k ∈ range n, Complex.normSq (dft n x k) = n * ∑ m ∈ range n, Complex.normSq (x m) := by
  have hcomplex : ∑ k ∈ range n, dft n x k * conj (dft n x k) = n * ∑ m ∈ range n, x m * conj (x m) := by
    rw [sum_dft_mul, mul_sum]
    refine sum_congr rfl fun m hm => ?_
    rw [dft_conj (mem_range.1 hm), idft_dft (mem_range.1 hm), mul_left_comm]
  simp only [Complex.mul_conj] at hcomplex
  exact_mod_cast hcomplex

/-! The split into even and odd samples (R145). -/

theorem sum_range_two_mul (n : Nat) (f : Nat → ℂ) :
    ∑ m ∈ range (2 * n), f m = ∑ m ∈ range n, f (2 * m) + ∑ m ∈ range n, f (2 * m + 1) := by
  induction n with
  | zero => simp
  | succ n ih =>
    rw [Nat.mul_succ, sum_range_succ, sum_range_succ, ih, sum_range_succ, sum_range_succ]
    ring

theorem dft_two_mul (n : Nat) (x : Nat → ℂ) (k : Nat) :
    dft (2 * n) x k = dft n (fun m => x (2 * m)) k + root (2 * n) ^ k * dft n (fun m => x (2 * m + 1)) k := by
  have heven : ∀ m, root (2 * n) ^ (k * (2 * m)) = root n ^ (k * m) := fun m => by
    rw [mul_left_comm, pow_mul, root_two_mul_sq]
  rw [dft_eq, dft_eq, dft_eq, sum_range_two_mul, mul_sum]
  congr 1
  · exact sum_congr rfl fun m _ => by rw [heven]
  · refine sum_congr rfl fun m _ => ?_
    rw [Nat.mul_succ, pow_add, heven]
    ring

/-- The spectrum has period `N`. -/
theorem dft_add_length (hn : n ≠ 0) (x : Nat → ℂ) (k : Nat) : dft n x (k + n) = dft n x k := by
  rw [dft_eq, dft_eq]
  refine sum_congr rfl fun m _ => ?_
  rw [Nat.add_mul, pow_add, pow_mul (root n) n, root_pow_length hn, one_pow, mul_one]

theorem dft_two_mul_add (hn : n ≠ 0) (x : Nat → ℂ) (k : Nat) :
    dft (2 * n) x (k + n) = dft n (fun m => x (2 * m)) k - root (2 * n) ^ k * dft n (fun m => x (2 * m + 1)) k := by
  rw [dft_two_mul, dft_add_length hn, dft_add_length hn, pow_add, root_two_mul_pow hn]
  ring

end Sys2Proof.Machine.Exact
end

section
/-!
PROOF. The transforms under `NUM_EXACT` (`46_reference_transforms_and_properties.md` R145 to R152): the operations are
those of the complex numbers, so the recursion is the naive transform, and its laws are those of the naive sums.
-/

namespace Sys2Proof.Machine.Exact

open Finset ComplexConjugate

/-! The operations of `NUM_EXACT` on complex numbers. -/

theorem toC_injective : Function.Injective toC := fun ⟨_, _⟩ ⟨_, _⟩ h => by
  obtain ⟨rfl, rfl⟩ := Complex.mk.inj h
  rfl

@[simp] theorem toC_cconj (z : Cx ℝ) : toC (cconj num z) = conj (toC z) := rfl

@[simp] theorem toC_cscale (z : Cx ℝ) (l : Nat) : toC (cscale (steady num) z l) = toC z / 2 ^ l := by
  have hpow : (2 ^ l : ℂ) = ((2 ^ l : ℝ) : ℂ) := by push_cast; rfl
  rw [hpow]
  exact Complex.ext (Complex.div_ofReal_re (toC z) (2 ^ l)).symm (Complex.div_ofReal_im (toC z) (2 ^ l)).symm

@[simp] theorem toC_BF_fst (e o w : Cx ℝ) : toC (BF (steady num) e o w).1 = toC e + toC w * toC o := rfl

@[simp] theorem toC_BF_snd (e o w : Cx ℝ) : toC (BF (steady num) e o w).2 = toC e - toC w * toC o := rfl

theorem toC_tw (k st : Nat) : toC (tw k st) = root (2 ^ st) ^ k := by
  have hangle : (-2 * Real.pi * Complex.I * k / (2 ^ st : Nat) : ℂ) =
      ((-(2 * Real.pi * k / 2 ^ st) : ℝ) : ℂ) * Complex.I := by
    push_cast
    ring
  rw [root_pow, hangle]
  refine Complex.ext ?_ ?_
  · rw [Complex.exp_ofReal_mul_I_re, Real.cos_neg]
    rfl
  · rw [Complex.exp_ofReal_mul_I_im, Real.sin_neg]
    rfl

/-! The recursion and its inverse (R145, R146). -/

theorem toC_fftRec (l : Nat) (x : Nat → Cx ℝ) :
    ∀ k, k < 2 ^ l → toC (fftRec num tw l x k) = dft (2 ^ l) (fun n => toC (x n)) k := by
  induction l generalizing x with
  | zero =>
    intro k hk
    obtain rfl : k = 0 := Nat.lt_one_iff.1 hk
    simp [fftRec, dft_zero]
  | succ l ih =>
    refine forall_lt_two_pow_succ fun j hj => ?_
    rw [fftRec_first num tw x hj, fftRec_second, toC_BF_fst, toC_BF_snd, ih _ j hj, ih _ j hj, toC_tw, pow_succ',
      dft_two_mul, dft_two_mul_add (Nat.two_pow_pos l).ne']
    exact ⟨rfl, rfl⟩

/-- Settles O58: even and odd samples, stage by stage. -/
theorem recursionIsTheDft : Obligations.RecursionIsTheDft := toC_fftRec

theorem toC_ifftRef (l : Nat) (x : Nat → Cx ℝ) {n : Nat} (hn : n < 2 ^ l) :
    toC (ifftRef num tw l x n) = idft (2 ^ l) (fun k => toC (x k)) n := by
  rw [← conj_dft_conj, ifftRef, toC_cscale, toC_cconj, toC_fftRec l _ n hn]
  push_cast
  rfl

/-! The laws of the recursion (R147, R149, R150, R152). -/

variable {l : Nat} {x y z : Nat → Cx ℝ}

theorem ifftRef_fftRec {n : Nat} (hn : n < 2 ^ l) : ifftRef num tw l (fftRec num tw l x) n = x n :=
  toC_injective <| by rw [toC_ifftRef l _ hn, idft_congr (toC_fftRec l x), idft_dft hn]

theorem fftRec_ifftRef {n : Nat} (hn : n < 2 ^ l) : fftRec num tw l (ifftRef num tw l x) n = x n :=
  toC_injective <| by rw [toC_fftRec l _ n hn, dft_congr fun _ => toC_ifftRef l x, dft_idft hn]

theorem toC_fftRec_linear {a b : ℂ} (hz : ∀ n, n < 2 ^ l → toC (z n) = a * toC (x n) + b * toC (y n)) {k : Nat}
    (hk : k < 2 ^ l) :
    toC (fftRec num tw l z k) = a * toC (fftRec num tw l x k) + b * toC (fftRec num tw l y k) := by
  rw [toC_fftRec l z k hk, toC_fftRec l x k hk, toC_fftRec l y k hk, dft_congr hz, dft_linear]

theorem sum_normSq_fftRec (l : Nat) (x : Nat → Cx ℝ) :
    ∑ n ∈ range (2 ^ l), Complex.normSq (toC (x n)) =
      1 / 2 ^ l * ∑ k ∈ range (2 ^ l), Complex.normSq (toC (fftRec num tw l x k)) := by
  have hspectrum : ∑ k ∈ range (2 ^ l), Complex.normSq (toC (fftRec num tw l x k)) =
      ∑ k ∈ range (2 ^ l), Complex.normSq (dft (2 ^ l) (fun n => toC (x n)) k) :=
    sum_congr rfl fun k hk => by rw [toC_fftRec l x k (mem_range.1 hk)]
  rw [hspectrum, sum_normSq_dft, ← mul_assoc, Nat.cast_pow, Nat.cast_ofNat, one_div_mul_cancel (by positivity), one_mul]

theorem toC_fftRec_zero (l : Nat) (x : Nat → Cx ℝ) :
    toC (fftRec num tw l x 0) = ∑ n ∈ range (2 ^ l), toC (x n) := by
  rw [toC_fftRec l x 0 (Nat.two_pow_pos l), dft_zero]

theorem fftRec_symmetric (hx : ∀ n, n < 2 ^ l → (x n).im = 0) {k : Nat} (h0 : 0 < k) (hk : k < 2 ^ l) :
    fftRec num tw l x (2 ^ l - k) = cconj num (fftRec num tw l x k) := by
  have hreal : ∀ n, n < 2 ^ l → conj (toC (x n)) = toC (x n) := fun n hn => Complex.conj_eq_iff_im.2 (hx n hn)
  refine toC_injective ?_
  rw [toC_cconj, toC_fftRec l x k hk, toC_fftRec l x _ (by omega), dft_length_sub hreal hk]

end Sys2Proof.Machine.Exact
end

section
/-!
PROOF. The FBU under `NUM_EXACT` (`46_reference_transforms_and_properties.md` R146, R147, R152): its twiddles are those
of the recursion, so its commands leave the naive transforms, and one undoes the other.
-/

namespace Sys2Proof.Machine

/-! `FFT` and `IFFT` at the command level, in any build. -/

section commands

variable {S V : Type}

theorem runsAs_fft (B : Build S V) (l : Nat) : RunsAs B l [.fft] (fftLoops B (2 ^ l) l) :=
  runsAs_single (fun s hr hl => by rw [commandLevel, guarded_runs hr hl])
    fun s => (fftLoops_touch_frame B l s).mono fun _ _ => trivial

theorem ifftLoops_touch_frame (B : Build S V) (l : Nat) (s : Fbu S V) :
    Touches (· < 2 ^ l) s (ifftLoops B (2 ^ l) l s) :=
  (((conjLoop_touches_frame B _ s).trans (fftLoops_touch_frame B l _)).trans (conjLoop_touches_frame B _ _)).trans
    (forBelow_touches_below (sclBody_touches B l) _)

theorem runsAs_ifft (B : Build S V) (l : Nat) : RunsAs B l [.ifft] (ifftLoops B (2 ^ l) l) :=
  runsAs_single (fun s hr hl => by rw [commandLevel, guarded_runs hr hl])
    fun s => (ifftLoops_touch_frame B l s).mono fun _ _ => trivial

end commands

/-! The frames they leave under `NUM_EXACT`. -/

namespace Exact

variable {p : Fin 21} {freeWord : Nat → Cx ℝ} {s : Fbu ℝ (Cx ℝ)} {l : Nat} {x : Nat → Cx ℝ}

theorem tw_build {k st : Nat} (h1 : 1 ≤ st) (hst : st ≤ p.val + 1) (hk : k < half st) :
    Machine.tw (build p freeWord) k st = tw k st :=
  tw_of_dependsOnFraction exactTwiddle_dependsOnFraction (fun _ _ => rfl) h1 hst hk

theorem fftRec_build (hl : l ≤ p.val + 1) (x : Nat → Cx ℝ) {k : Nat} (hk : k < 2 ^ l) :
    fftRec num (Machine.tw (build p freeWord)) l x k = fftRec num tw l x k :=
  fftRec_congr_tw (fun _ _ h1 hst => tw_build h1 (hst.trans hl)) x k hk

theorem ifftRef_build (hl : l ≤ p.val + 1) (x : Nat → Cx ℝ) {n : Nat} (hn : n < 2 ^ l) :
    ifftRef num (Machine.tw (build p freeWord)) l x n = ifftRef num tw l x n :=
  ifftRef_congr_tw (fun _ _ h1 hst => tw_build h1 (hst.trans hl)) x hn

theorem fftLoops_leaveFftRec (freeWord : Nat → Cx ℝ) (hl : l ≤ p.val + 1) (hx : Holds s l x) :
    LeavesFrame l (fftRec num tw l x) s (fftLoops (build p freeWord) (2 ^ l) l s) :=
  (fftLoops_leaveFrame rfl hx).congr fun _ hi =>
    (scheduleComputesTheRecursion _ _ _ l x _ hi).trans (fftRec_build hl x hi)

theorem ifftLoops_leaveIfftRef (freeWord : Nat → Cx ℝ) (hl : l ≤ p.val + 1) (hx : Holds s l x) :
    LeavesFrame l (ifftRef num tw l x) s (ifftLoops (build p freeWord) (2 ^ l) l s) :=
  (ifftLoops_leaveFrame rfl hx).congr fun _ hi => (frameIfft_eq_ifftRef _ _ x hi).trans (ifftRef_build hl x hi)

theorem commandLevel_fft_holds (freeWord : Nat → Cx ℝ) (hr : Ready s) (hl : HasLength (build p freeWord) s l)
    (hx : Holds s l x) :
    ∃ u, commandLevel (build p freeWord) .fft s = .next u ∧ Holds u l (fftRec num tw l x) :=
  ⟨fftLoops (build p freeWord) (2 ^ l) l s, by rw [commandLevel, guarded_runs hr hl],
    (fftLoops_leaveFftRec freeWord hl.2 hx).holds⟩

/-- `fft ; ifft` at the command level. -/
theorem fft_ifft_holds (freeWord : Nat → Cx ℝ) (hr : Ready s) (hl : HasLength (build p freeWord) s l)
    (hx : Holds s l x) :
    ∃ u, runCommands (build p freeWord) [.fft, .ifft] s = .next u ∧ Holds u l x := by
  have hrun := ((runsAs_fft (build p freeWord) l).append (runsAs_ifft _ l) s hr hl).1
  have hback := ifftLoops_leaveIfftRef freeWord hl.2 (fftLoops_leaveFftRec freeWord hl.2 hx).holds
  exact ⟨_, hrun, (hback.congr fun _ => ifftRef_fftRec).holds⟩

/-- `ifft ; fft` at the command level. -/
theorem ifft_fft_holds (freeWord : Nat → Cx ℝ) (hr : Ready s) (hl : HasLength (build p freeWord) s l)
    (hx : Holds s l x) :
    ∃ u, runCommands (build p freeWord) [.ifft, .fft] s = .next u ∧ Holds u l x := by
  have hrun := ((runsAs_ifft (build p freeWord) l).append (runsAs_fft _ l) s hr hl).1
  have hback := fftLoops_leaveFftRec freeWord hl.2 (ifftLoops_leaveIfftRef freeWord hl.2 hx).holds
  exact ⟨_, hrun, (hback.congr fun _ => fftRec_ifftRef).holds⟩

/-- Settles O59: the commands leave the recursion and its inverse, with the twiddles of `NUM_EXACT`. -/
theorem inverseIsTheIdft : Obligations.InverseIsTheIdft := by
  refine ⟨fun l x n hn => toC_ifftRef l x hn, ?_⟩
  intro p freeWord s l x B hr hl hx
  constructor
  · obtain ⟨t, u, hexec, hrun, hu, hframe, hrest⟩ := fft_computes_fftRec (B := B) hr hl rfl hx
    exact ⟨t, u, hexec, hrun, hu,
      fun k hk => ⟨(hframe k hk).trans (congrArg some (fftRec_build hl.2 x hk)), toC_fftRec l x k hk⟩, hrest⟩
  · obtain ⟨t, u, hexec, hrun, hu, hframe, hrest⟩ := ifft_computes_ifftRef (B := B) hr hl rfl hx
    exact ⟨t, u, hexec, hrun, hu,
      fun n hn => ⟨(hframe n hn).trans (congrArg some (ifftRef_build hl.2 x hn)), toC_ifftRef l x hn⟩, hrest⟩

/-- Settles O60: the laws of the recursion, and the frames the commands leave. -/
theorem exactTransformLaws : Obligations.ExactTransformLaws := by
  refine ⟨fun l x y => ⟨fun _ => ifftRef_fftRec, fun _ => fftRec_ifftRef, fun a b z hz k hk => toC_fftRec_linear hz hk,
    sum_normSq_fftRec l x⟩, ?_⟩
  intro p freeWord s l x B hr hl hx
  refine ⟨fft_ifft_holds freeWord hr hl hx, ifft_fft_holds freeWord hr hl hx, ?_⟩
  obtain ⟨u, hrun, hframe⟩ := commandLevel_fft_holds freeWord hr hl hx
  exact ⟨u, _, hrun, hframe, toC_fftRec_zero l x, fun hreal k h0 hk => fftRec_symmetric hreal h0 hk⟩

end Exact

end Sys2Proof.Machine
end

section
/-!
PROOF. One engine step, phase by phase (`48_sequencer_microsteps.md` R172 to R176): the operation it does on the words,
and the sequencer it leaves behind.
-/

namespace Sys2Proof.Machine

variable {S V : Type}

/-! The work of each phase (R172 to R175). -/

theorem phaseBody_rev {q : Seq} (h : q.phase = .rev) (B : Build S V) (l : Nat) (s : Fbu S V) :
    phaseBody B l q s = revBody B l q.j s := by
  rw [phaseBody, h]

theorem phaseBody_bfy {q : Seq} (h : q.phase = .bfy) (B : Build S V) (l : Nat) (s : Fbu S V) :
    phaseBody B l q s = butterfly B q.s (pairFirst q.s q.j) s := by
  rw [phaseBody, h, bfyBody]

theorem phaseBody_cnj {q : Seq} (h : q.phase = .cnj1 ∨ q.phase = .cnj2) (B : Build S V) (l : Nat) (s : Fbu S V) :
    phaseBody B l q s = cnjBody B q.j s := by
  rcases h with h | h <;> rw [phaseBody, h]

theorem phaseBody_scl {q : Seq} (h : q.phase = .scl) (B : Build S V) (l : Nat) (s : Fbu S V) :
    phaseBody B l q s = sclBody B l q.j s := by
  rw [phaseBody, h]

/-- The position of a butterfly can be read off its first word (R84). -/
theorem pairFirst_mod_half {st : Nat} (h : 1 ≤ st) (j : Nat) : pairFirst st j % half st = pairPos st j :=
  block_mod_half h (pairPos_lt st j) (j / half st)

/-- The words an engine step leaves are those of its phase's body, and it changes nothing else but `SEQ` and the count
of free values. -/
theorem engineStep_words {B : Build S V} {s t : Fbu S V} (h : engineStep B s = .next t) :
    t = { s with xmem := t.xmem, free := t.free, seq := t.seq } ∧
      t.xmem = (phaseBody B (log2 s.len) s.seq s).xmem := by
  obtain ⟨-, fin, -, rfl⟩ := engineStep_effect h
  have hframe := (phaseBody_touches_words B (log2 s.len) s.seq s).eq_frame
  exact ⟨congrArg (fun u : Fbu S V => { u with seq := advance s.len s.seq fin }) hframe, rfl⟩

/-- Settles O27: the words of each phase are those of its body, which `revBody_words`, `butterfly_words`, `cnjBody_word`
and `sclBody_word` give. -/
theorem engineStepDoesOneOperation : Obligations.EngineStepDoesOneOperation := by
  intro S V B s t h
  obtain ⟨hrun, -⟩ := engineStep_effect h
  obtain ⟨-, -, hrange⟩ := runnable_iff.1 hrun
  obtain ⟨hframe, hmem⟩ := engineStep_words h
  have hword (i : Nat) : t.word i = (phaseBody B (log2 s.len) s.seq s).word i := word_congr hmem i
  refine ⟨hframe, fun hp => ?rev, fun hp => ?bfy, fun hp => ?cnj, fun hp => ?scl⟩
  case rev =>
    simp only [hword, hmem, phaseBody_rev hp]
    refine ⟨fun hlt => ?_, fun hge => by rw [revBody_stays hge]⟩
    obtain ⟨hlow, hhigh⟩ := revBody_words B hlt s
    exact ⟨hhigh, hlow, fun i hi hi' => (revBody_touches B _ _ s).word i (not_or.2 ⟨hi, hi'⟩)⟩
  case bfy =>
    obtain ⟨hstage, -⟩ := butterfly_inRange hrange hp
    simp only [hword, phaseBody_bfy hp]
    obtain ⟨e, o, n, he, ho, hx, hy⟩ := butterfly_words B s.seq.s (pairFirst s.seq.s s.seq.j) s
    rw [pairFirst_mod_half (legalStage_iff.1 hstage).1] at hx hy
    exact ⟨e, o, n, he, ho, hx, hy, fun i hi hi' => (butterfly_touches B _ _ s).word i (not_or.2 ⟨hi, hi'⟩)⟩
  case cnj =>
    simp only [hword, phaseBody_cnj hp]
    exact ⟨cnjBody_word B _ s, (cnjBody_touches B _ s).word⟩
  case scl =>
    simp only [hword, phaseBody_scl hp]
    exact ⟨sclBody_word B _ _ s, (sclBody_touches B _ _ s).word⟩

/-! The sequencer (R176). -/

/-- A command of one phase ends with it. -/
theorem phaseEnd_of_mac_none {l : Nat} {q fin : Seq} (hm : q.mac = .none) (h : phaseEnd l q = some fin) :
    fin = Seq.rest := by
  obtain ⟨p, m, st, j⟩ := q
  subst hm
  cases p <;> cases h <;> rfl

/-- Settles O28: past the counter, `SEQ` is the row of `phaseEnd` that the command and the phase select: each row is
evaluated. -/
theorem phasesFollowTheTable : Obligations.PhasesFollowTheTable := by
  intro S V B s t h l last
  obtain ⟨-, fin, hfin, rfl⟩ := engineStep_effect h
  refine ⟨fun hj => if_pos hj, fun hj => ?_⟩
  have hlast : advance s.len s.seq fin = fin := if_neg hj
  have hrow {q : Seq} (hq : phaseEnd l s.seq = some q) : advance s.len s.seq fin = q :=
    hlast.trans (Option.some.inj (hfin.symm.trans hq))
  refine ⟨fun hm => hlast.trans (phaseEnd_of_mac_none hm hfin), ?_, ?_, ?_, ?_, ?_, ?_, ?_, ?_, ?_, ?_, ?_⟩
  all_goals
    intros
    refine hrow ?_
    simp [phaseEnd, Seq.rest, *]

end Sys2Proof.Machine
end

section
/-!
PROOF. The acceptance of the ten commands (`48_sequencer_microsteps.md` R171) and the agreement of the micro-step level
with the command level (R177, R178).
-/

namespace Sys2Proof.Machine

variable {S V : Type} {B : Build S V} {s t : Fbu S V}

theorem execOf_of_exec {c : Config} {i : Instr} {s t : Fbu c.Scalar c.Port} (h : exec i ⟨c, s⟩ = .next ⟨c, t⟩) :
    execOf (build c) i s = .next t := by
  rw [exec_mk] at h
  obtain ⟨f, hf, hft⟩ := lift_eq_next h
  cases hft
  exact hf

/-! Who loads `SEQ`. -/

theorem accepted_keepsSeq {run : Fbu S V → Out S V} (hrun : ∀ t, run s = .next t → t.seq = s.seq)
    (h : accepted s run = .next t) : t.seq = s.seq := by
  rcases accepted_cases s run with ⟨-, e⟩ | ⟨-, -, e⟩ | ⟨-, -, e⟩ <;> rw [e] at h
  · cases h; rfl
  · cases h; rfl
  · exact hrun t h

theorem failed_seq {e : CmdError} {i : Instr} (h : failed s e i = .next t) : t.seq = s.seq := by
  cases h; rfl

theorem execOf_nop_seq (h : execOf B .nop s = .next t) : t.seq = s.seq := by
  rw [execOf_nop] at h
  cases h
  rfl

theorem execOf_setn_seq {n : Nat} (h : execOf B (.setn n) s = .next t) : t.seq = s.seq := by
  rw [execOf, setnOf] at h
  refine accepted_keepsSeq (fun u hu => ?_) h
  split at hu
  · cases hu; rfl
  · exact failed_seq hu

theorem execOf_clrerr_seq (h : execOf B .clrerr s = .next t) : t.seq = s.seq := by
  rw [execOf, clrerrOf] at h
  split at h <;> cases h <;> rfl

theorem execOf_bfly_seq {st a : Nat} (h : execOf B (.bfly st a) s = .next t) : t.seq = s.seq := by
  rw [execOf, bflyOf] at h
  refine accepted_keepsSeq (fun u hu => ?_) h
  beta_reduce at hu
  split_ifs at hu
  · cases hu; exact (butterfly_touches B st a s).seq
  · exact failed_seq hu
  · exact failed_seq hu
  · exact failed_seq hu

/-- A command that loads `SEQ` leaves no error pending. -/
theorem Effect.seq_of_err {i : Instr} (h : Effect B i s t) (he : t.err = true) : t.seq = s.seq := by
  cases h with
  | same h | error _ _ h | length _ _ _ h | cleared _ h => subst h; rfl
  | pair st a _ _ _ _ _ h => subst h; exact (butterfly_touches B st a s).seq
  | start _ _ _ ready _ _ _ h =>
    subst h
    exact Bool.noConfusion (he.symm.trans ready.2)

/-- Settles O15: the acceptances are those of `execOf_bitrev` to `execOf_ifft`, and no other command loads `SEQ`. -/
theorem multiStepCommandsLoadSeq : Obligations.MultiStepCommandsLoadSeq := by
  refine ⟨fun c s l hr hl => ⟨exec_next (execOf_bitrev hr hl), fun st h1 hst => exec_next ?_,
    exec_next (execOf_conj hr hl), exec_next (execOf_scale hr hl), exec_next (execOf_fft hr hl),
    exec_next (execOf_ifft hr hl)⟩, fun c s t n st a h => ?_, fun c s t i h he => ?_⟩
  · exact (execOf_stage hr hl st).trans (if_pos (legalStage_iff.2 ⟨h1, hst⟩))
  · rcases h with h | h | h | h
    · exact execOf_nop_seq (execOf_of_exec h)
    · exact execOf_setn_seq (execOf_of_exec h)
    · exact execOf_clrerr_seq (execOf_of_exec h)
    · exact execOf_bfly_seq (execOf_of_exec h)
  · exact (execOf_effect (execOf_of_exec h)).seq_of_err he

/-! The two levels, command by command. -/

/-- `micro` and `whole`, the outcomes of a command in `s` at the micro-step level and at the command level, agree: either
the command is complete when it is accepted, or `SEQ` is loaded and `k` engine steps do the rest. -/
inductive LevelsAgree (B : Build S V) (k : Nat) (s : Fbu S V) (micro whole : Out S V) : Prop where
  | atOnce (same : micro = whole) (seq : ∀ t, micro = .next t → t.seq = s.seq)
  | stepwise (q : Seq) (u : Fbu S V) (loaded : micro = .next { s with seq := q }) (busy : q.phase ≠ .idle)
      (result : whole = .next u) (seq : u.seq = s.seq)
      (run : engineRun B k { s with seq := q } = .next { u with seq := Seq.rest })

theorem levelsAgree_failed (B : Build S V) (k : Nat) (s : Fbu S V) (e : CmdError) (i : Instr) :
    LevelsAgree B k s (failed s e i) (failed s e i) :=
  .atOnce rfl fun _ => failed_seq

theorem exists_hasLength (hpow : ispow2 s.len = true) (hle : s.len ≤ B.nmax) : ∃ l, HasLength B s l := by
  have hlen := eq_two_pow_log2 hpow
  rw [hlen] at hle
  exact ⟨_, hlen, (Nat.pow_le_pow_iff_right one_lt_two).1 hle⟩

/-- Under the length guard the levels agree if they do past it. -/
theorem guarded_levelsAgree {i : Instr} {run run' : Nat → Nat → Out S V}
    (hrun : ∀ l, HasLength B s l → LevelsAgree B (stepCount i l) s (run (2 ^ l) l) (run' (2 ^ l) l)) :
    LevelsAgree B (stepCount i (log2 s.len)) s (guarded B i s run) (guarded B i s run') := by
  simp only [guarded, accepted]
  split_ifs with hbusy herr hpow hle
  · exact .atOnce rfl fun t ht => by cases ht; rfl
  · exact .atOnce rfl fun t ht => by cases ht; rfl
  · obtain ⟨l, hl⟩ := exists_hasLength hpow hle
    rw [hl.1, log2_two_pow]
    exact hrun l hl
  · exact .atOnce rfl fun t ht => by cases ht
  · exact levelsAgree_failed B _ s _ i

/-- The engine steps of every command are its loops (R177, R178). -/
theorem execOf_levelsAgree (B : Build S V) (i : Instr) (s : Fbu S V) :
    LevelsAgree B (stepCount i (log2 s.len)) s (execOf B i s) (commandLevel B i s) := by
  cases i with
  | nop => exact .atOnce rfl fun _ => execOf_nop_seq (B := B)
  | setn n => exact .atOnce rfl fun _ => execOf_setn_seq
  | clrerr => exact .atOnce rfl fun _ => execOf_clrerr_seq (B := B)
  | bfly st a => exact .atOnce rfl fun _ => execOf_bfly_seq
  | bitrev =>
    rw [execOf, bitrevOf, commandLevel]
    exact guarded_levelsAgree fun l hl =>
      .stepwise _ _ rfl (by decide) rfl (revLoop_touches B l s).seq (engineRun_bitrev hl)
  | conj =>
    rw [execOf, conjOf, commandLevel]
    exact guarded_levelsAgree fun l hl =>
      .stepwise _ _ rfl (by decide) rfl (conjLoop_touches_frame B _ s).seq (engineRun_conj hl)
  | scale =>
    rw [execOf, scaleOf, commandLevel]
    exact guarded_levelsAgree fun l hl =>
      .stepwise _ _ rfl (by decide) rfl (forBelow_touches_below (sclBody_touches B l) s).seq (engineRun_scale hl)
  | fft =>
    rw [execOf, fftOf, commandLevel]
    exact guarded_levelsAgree fun l hl =>
      .stepwise _ _ rfl (by decide) rfl (fftLoops_touch_frame B l s).seq (engineRun_fft hl)
  | ifft =>
    rw [execOf, ifftOf, commandLevel]
    exact guarded_levelsAgree fun l hl =>
      .stepwise _ _ rfl (by decide) rfl (ifftLoops_touch_frame B l s).seq (engineRun_ifft hl)
  | stage st =>
    rw [execOf, stageOf, commandLevel]
    refine guarded_levelsAgree fun l hl => ?_
    split_ifs with hst
    · exact .stepwise _ _ rfl (by simp) rfl (stageLoop_touches_frame B hst s).seq (engineRun_stage hl hst)
    · exact levelsAgree_failed B _ s _ _

/-- Settles O23: a command complete at its acceptance is the command level's; the loops of the others leave the
`SEQ` at rest that they found. -/
theorem microStepsAgreeWithCommandLevel : Obligations.MicroStepsAgreeWithCommandLevel := by
  intro c s i hrest
  cases execOf_levelsAgree (build c) i s with
  | atOnce same seq =>
    refine ⟨fun u hu => ?_, fun f hf => ?_⟩
    · have hexec := same.trans hu
      have hseq := (seq u hexec).trans hrest
      refine ⟨u, exec_next hexec, ?_, hseq⟩
      rw [busy_rest u hseq]
      rfl
    · rw [exec_mk, same, hf]
      rfl
  | stepwise q v loaded busy result seq run =>
    rw [result]
    refine ⟨fun u hu => ?_, fun f hf => by cases hf⟩
    cases hu
    have hbusy : Fbu.busy { s with seq := q } = true := bne_iff_ne.2 busy
    refine ⟨_, exec_next loaded, ?_, seq.trans hrest⟩
    rw [if_pos hbusy, run, ← hrest, ← seq]

/-! The steps on the way. -/

/-- Only a busy engine has a step. -/
theorem busy_of_engineStep (h : engineStep B s = .next t) : s.busy = true := by
  obtain ⟨hrun, fin, hfin, -⟩ := engineStep_effect h
  obtain ⟨-, -, hrange⟩ := runnable_iff.1 hrun
  have hruns : SeqRuns s.len (log2 s.len) s.seq := ⟨hrange, by rw [hfin]; rfl⟩
  exact bne_iff_ne.2 hruns.phase_ne_idle

/-- A run of the engine passes through busy states until its last step. -/
theorem engineRun_busy_before {k n : Nat} (h : engineRun B n s = .next t) (hk : k < n) :
    ∃ u, engineRun B k s = .next u ∧ u.busy = true := by
  induction n generalizing k s with
  | zero => omega
  | succ n ih =>
    rw [engineRun] at h
    cases hs : engineStep B s with
    | fault f => rw [hs] at h; cases h
    | refused r => rw [hs] at h; cases h
    | next v =>
      rw [hs] at h
      cases k with
      | zero => exact ⟨s, rfl, busy_of_engineStep hs⟩
      | succ k =>
        rw [engineRun, hs]
        exact ih h (by omega)

/-- Settles O24: the engine steps of a started command end at rest, and only a busy engine has a step. -/
theorem commandsTakeExactlyTheirSteps : Obligations.CommandsTakeExactlyTheirSteps := by
  intro c s t i hidle hexec hbusy
  have hmicro := execOf_of_exec hexec
  cases execOf_levelsAgree (build c) i s with
  | atOnce same seq =>
    rw [busy_congr (seq t hmicro), hidle] at hbusy
    cases hbusy
  | stepwise q u loaded busy result seq run =>
    cases loaded.symm.trans hmicro
    exact ⟨fun k hk => engineRun_busy_before run hk, _, run, rfl⟩

end Sys2Proof.Machine
end

section
/-!
PROOF. What the invariant excludes (`48_sequencer_microsteps.md` R179, `70_reset_and_hazards.md` R216): no step stops,
and the host sees no error while a command runs.
-/

namespace Sys2Proof.Machine

variable {S V : Type} {B : Build S V} {s : Fbu S V}

/-- An outcome that is a next state. -/
def Answers (o : Out S V) : Prop := ∃ t, o = .next t

theorem answers_failed (s : Fbu S V) (e : CmdError) (i : Instr) : Answers (failed s e i) := ⟨_, rfl⟩

theorem accepted_answers {run : Fbu S V → Out S V} (hrun : Answers (run s)) : Answers (accepted s run) := by
  rcases accepted_cases s run with ⟨-, e⟩ | ⟨-, -, e⟩ | ⟨-, -, e⟩ <;> rw [e]
  · exact ⟨s, rfl⟩
  · exact ⟨s, rfl⟩
  · exact hrun

/-- A datapath command on a length within the memory answers if it does past the guard. -/
theorem guarded_answers {i : Instr} {run : Nat → Nat → Out S V} (hle : s.len ≤ B.nmax)
    (hrun : ∀ n l, Answers (run n l)) : Answers (guarded B i s run) := by
  refine accepted_answers ?_
  split_ifs
  · exact hrun _ _
  · exact answers_failed s _ i

theorem execOf_answers (hle : s.len ≤ B.nmax) (i : Instr) : Answers (execOf B i s) := by
  cases i with
  | nop => exact ⟨s, execOf_nop B s⟩
  | setn n =>
    rw [execOf, setnOf]
    refine accepted_answers ?_
    split
    · exact ⟨_, rfl⟩
    · exact answers_failed s _ _
  | clrerr =>
    rw [execOf, clrerrOf]
    split <;> exact ⟨_, rfl⟩
  | bitrev | conj | scale | fft | ifft => exact guarded_answers hle fun _ _ => ⟨_, rfl⟩
  | stage st =>
    rw [execOf, stageOf]
    refine guarded_answers hle fun n l => ?_
    split
    · exact ⟨_, rfl⟩
    · exact answers_failed s _ _
  | bfly st a =>
    rw [execOf, bflyOf]
    refine guarded_answers hle fun n l => ?_
    split_ifs
    · exact ⟨_, rfl⟩
    · exact answers_failed s _ _
    · exact answers_failed s _ _

theorem transact_answers (hle : s.len ≤ B.nmax) (x : Transaction V) : Answers (transact B x s) := by
  cases x with
  | cmdIssue w =>
    cases hd : decode w with
    | ok i =>
      rw [transact, cmdIssue_legal hd]
      exact execOf_answers hle i
    | error e =>
      rw [transact, cmdIssue_illegal hd]
      exact accepted_answers ⟨_, rfl⟩
  | regRead | sampleRead | sampleWrite | reset => exact ⟨_, rfl⟩

/-- A running command has a next engine step. -/
theorem SeqOk.engineStep_answers (h : SeqOk B s) (hb : s.busy = true) : Answers (engineStep B s) := by
  rw [SeqOk, if_pos hb] at h
  obtain ⟨hrun, hend⟩ := h
  obtain ⟨fin, hfin⟩ := Option.isSome_iff_exists.1 hend
  exact ⟨_, engineStep_runs hrun hfin⟩

/-- The next step of an FBU of any build that meets the invariant answers. -/
theorem FbuInv.nextStep_answers (h : FbuInv B s) : Answers (nextStep B s) := by
  obtain ⟨-, hle, -, -, hseq⟩ := h
  rcases nextStep_cases B s with ⟨-, -, e⟩ | ⟨-, hb, e⟩ | ⟨r, rest, -, hb, -, e⟩ | ⟨r, rest, -, -, e⟩ <;> rw [e]
  · exact ⟨s, rfl⟩
  · exact SeqOk.engineStep_answers hseq hb
  · exact SeqOk.engineStep_answers (s := { s with pending := tick s.pending }) hseq hb
  · exact transact_answers (s := { s with pending := rest }) hle r.txn

/-- Settles O39: `NLEN ≤ NMAX` keeps the length guard from stopping, and the range of `SEQ` the engine. -/
theorem noStepStops : Obligations.NoStepStops := by
  rintro ⟨c, s⟩ h
  obtain ⟨t, ht⟩ := FbuInv.nextStep_answers h
  exact ⟨⟨c, t⟩, congrArg (lift c) ht⟩

/-- Settles O45: the invariant excludes an error while a command runs, and without one the report is zero. -/
theorem busyHostSeesNoError : Obligations.BusyHostSeesNoError := by
  intro S V B s h hb
  have herr := FbuInv.err_of_busy h hb
  obtain ⟨-, -, ⟨hcode, -, hcmd⟩, -, -⟩ := h
  refine ⟨BitVec.eq_of_toNat_eq ?_, hcmd herr⟩
  exact (statusReg_toNat s).trans (by rw [hcode.1 herr, herr, hb]; rfl)

end Sys2Proof.Machine
end

section
/-!
PROOF. Errors (`60_exceptions.md` R190 to R197): the checks of a command word in their order, dropping while an error is
pending, and what error entry leaves as it was.
-/

namespace Sys2Proof.Machine

variable {S V : Type} {B : Build S V} {s : Fbu S V} {w : Word} {i : Instr}

/-! Checks 1 and 2: held while the engine runs, dropped while `ERR = 1`. -/

theorem execOf_busy (hb : s.busy = true) : execOf B i s = .next s := by
  by_cases hi : i = .clrerr
  · subst hi
    exact if_pos hb
  · obtain ⟨run, e⟩ := execOf_accepted hi B s
    exact e.trans (accepted_busy hb run)

theorem cmdIssue_busy (hb : s.busy = true) : cmdIssue B w s = .next s := by
  cases hd : decode w with
  | ok i => exact (cmdIssue_legal hd s).trans (execOf_busy hb)
  | error e => exact (cmdIssue_illegal hd s).trans (accepted_busy hb _)

/-- `0x08000000` is the one word of `CLRERR`. -/
theorem decode_clrerr_iff : decode w = .ok .clrerr ↔ w = 0x08000000 :=
  ⟨fun h => (encode_of_decode h).symm, fun h => h ▸ by decide⟩

theorem cmdIssue_clrerr (hb : s.busy = false) : cmdIssue B 0x08000000 s = .next s.clearError :=
  (cmdIssue_legal (decode_clrerr_iff.2 rfl) s).trans (execOf_clrerr hb)

/-- While `ERR = 1` a word that is not that of `CLRERR` is dropped, legal or not (R192). -/
theorem cmdIssue_dropped (hb : s.busy = false) (he : s.err = true) (hw : w ≠ 0x08000000) :
    cmdIssue B w s = .next s := by
  cases hd : decode w with
  | ok i =>
    have hi : i ≠ .clrerr := fun h => hw (decode_clrerr_iff.1 (h ▸ hd))
    exact (cmdIssue_legal hd s).trans (execOf_dropped hi hb he)
  | error e => exact (cmdIssue_illegal hd s).trans (illegal_dropped hb he w)

/-- Settles O11: every command but `CLRERR` stands under the check of `ERR`, and so does an illegal word. -/
theorem commandsAreDroppedWhileErr : Obligations.CommandsAreDroppedWhileErr := fun _ _ hb he =>
  ⟨fun _ => cmdIssue_dropped hb he, cmdIssue_clrerr hb, fun _ hi => exec_next (execOf_dropped hi hb he)⟩

/-- Settles O10: of the ways in which a word can write the error report only error entry leaves `ERR = 1`. -/
theorem errorsArePrecise : Obligations.ErrorsArePrecise := by
  intro S V B s t w hclear h herr
  rcases cmdIssue_registers h with ⟨-, hsame, -⟩ | ⟨hr, e, rfl⟩ | ⟨n, -, -, -, rfl⟩ | ⟨-, rfl⟩
  · exact Bool.noConfusion (herr.symm.trans (hsame.trans hclear))
  · exact ⟨hr.1, e, rfl⟩
  · exact Bool.noConfusion (herr.symm.trans hclear)
  · exact Bool.noConfusion herr

/-! Checks 3 to 9, in a ready FBU. -/

/-- A command that ends in error entry records the word it was issued as. -/
theorem cmdIssue_raises {e : CmdError} (hd : decode w = .ok i) (h : execOf B i s = .next (s.raise e (encode i))) :
    cmdIssue B w s = .next (s.raise e w) := by
  rw [cmdIssue_legal hd, h, encode_of_decode hd]

theorem not_legalStage_iff {l st : Nat} : ¬ legalStage l st = true ↔ st < 1 ∨ l < st := by
  rw [legalStage_iff]
  omega

theorem not_legalFirst_iff {n st a : Nat} : ¬ legalFirst n st a = true ↔ n ≤ a ∨ a.testBit (st - 1) = true := by
  rw [legalFirst_iff_testBit, not_and_or, not_lt, Bool.not_eq_false]

/-- A command that passes its checks raises no error. -/
theorem execOf_executes (hr : Ready s) (hset : ∀ n, i = .setn n → n ≤ B.nmax)
    (hdata : isDatapath i = true → ∃ l, HasLength B s l ∧ (∀ st, i = .stage st → 1 ≤ st ∧ st ≤ l) ∧
      ∀ st a, i = .bfly st a → 1 ≤ st ∧ st ≤ l ∧ a < 2 ^ l ∧ a.testBit (st - 1) = false) :
    ∃ t, execOf B i s = .next t ∧ t.err = false := by
  cases i with
  | nop => exact ⟨s, execOf_nop B s, hr.2⟩
  | setn n => exact ⟨_, execOf_setn_stores hr (hset n rfl), hr.2⟩
  | clrerr => exact ⟨_, execOf_clrerr hr.1, rfl⟩
  | bitrev | conj | scale | fft | ifft =>
    obtain ⟨l, hl, -⟩ := hdata rfl
    exact ⟨_, guarded_runs hr hl _ fun _ _ => started s _ _ 0, hr.2⟩
  | stage st =>
    obtain ⟨l, hl, hstage, -⟩ := hdata rfl
    exact ⟨_, (execOf_stage hr hl st).trans (if_pos (legalStage_iff.2 (hstage st rfl))), hr.2⟩
  | bfly st a =>
    obtain ⟨l, hl, -, hpair⟩ := hdata rfl
    obtain ⟨h1, hst, ha⟩ := hpair st a rfl
    have hstage := legalStage_iff.2 ⟨h1, hst⟩
    have hfirst := legalFirst_iff_testBit.2 ha
    refine ⟨_, (execOf_bfly hr hl st a).trans ((if_pos hstage).trans (if_pos hfirst)), ?_⟩
    exact (butterfly_touches B st a s).err.trans hr.2

/-- Settles O12: each check is that of `accepted`, of `illegal`, of `SETN`, of the length guard or of the operands, in
the order of R193. -/
theorem checksApplyInOrder : Obligations.ChecksApplyInOrder := by
  intro S V B s w
  refine ⟨cmdIssue_busy, fun hb he => ?pending, fun hr e hd => ?illegal, fun hr n hd hn => ?range,
    fun hr i hd hi hl => ?length, fun hr l hl => ⟨fun st hd hst => ?stage, fun st a hd hst => ?pairStage,
      fun st a hd _ _ ha => ?pairFirst⟩, fun hr i hd hset hdata => ?executes⟩
  case pending =>
    split
    · next hw => exact hw ▸ cmdIssue_clrerr hb
    · next hw => exact cmdIssue_dropped hb he hw
  case illegal => exact (cmdIssue_illegal hd s).trans (illegal_ready hr w)
  case range => exact cmdIssue_raises hd (execOf_setn_lengthRange hr hn)
  case length => exact cmdIssue_raises hd (execOf_invalidLength hr hi hl)
  case stage => exact cmdIssue_raises hd (execOf_stage_badStage hr hl (not_legalStage_iff.2 hst))
  case pairStage =>
    exact cmdIssue_raises hd (execOf_bfly_badOperand hr hl fun h => not_legalStage_iff.2 hst h.1)
  case pairFirst =>
    exact cmdIssue_raises hd (execOf_bfly_badOperand hr hl fun h => not_legalFirst_iff.2 ha h.2)
  case executes =>
    rw [cmdIssue_legal hd]
    exact execOf_executes hr hset hdata

end Sys2Proof.Machine
end

section
/-!
PROOF. Reset and progress (`70_reset_and_hazards.md` R210, R216): `Reset` in every state, and the engine steps a running
command still has to go.
-/

namespace Sys2Proof.Machine

variable {S V : Type} {B : Build S V} {s t : Fbu S V}

/-- Settles O35: a `Reset` that is due is never held, and `resetOp` writes every field of the spec. -/
theorem resetWorksInEveryState : Obligations.ResetWorksInEveryState := fun c _ _ hp =>
  ⟨_, congrArg (lift c) (nextStep_transacts hp (.inr rfl)), rfl, rfl, rfl, rfl, rfl, fun _ => rfl, rfl, rfl, rfl⟩

/-! The engine steps to go. -/

/-- The engine steps of a command after its current phase, on a frame of `n` words, `L = log2 n` (R176, R177). -/
def stepsAfter (n l : Nat) (q : Seq) : Nat :=
  match q.mac, q.phase with
  | .fft, .rev => l * (n / 2)
  | .fft, .bfy => (l - q.s) * (n / 2)
  | .ifft, .cnj1 => n + (l * (n / 2) + (n + n))
  | .ifft, .rev => l * (n / 2) + (n + n)
  | .ifft, .bfy => (l - q.s) * (n / 2) + (n + n)
  | .ifft, .cnj2 => n
  | _, _ => 0

/-- The engine steps from `q` on until the FBU is idle. -/
def stepsFrom (n l : Nat) (q : Seq) : Nat :=
  if q.phase = .idle then 0 else phaseLength n q - q.j + stepsAfter n l q

/-- Whatever `SEQ` is, the steps to go are at most those of `IFFT` (R177). -/
theorem stepsFrom_le (n l : Nat) (q : Seq) : stepsFrom n l q ≤ 4 * n + l * (n / 2) := by
  have hstages : (l - q.s) * (n / 2) ≤ l * (n / 2) := Nat.mul_le_mul_right _ (Nat.sub_le ..)
  have hphase : phaseLength n q ≤ n := by
    unfold phaseLength
    split <;> omega
  have hafter : stepsAfter n l q ≤ 3 * n + l * (n / 2) := by
    unfold stepsAfter
    split <;> omega
  unfold stepsFrom
  split <;> omega

/-- From a stage on, a transform has the butterflies of the stages to come, then what follows the stages. -/
theorem stepsFrom_stageStart {m : Mac} (hm : m ≠ .none) (n l st : Nat) :
    stepsFrom n l (stageStart l m (st + 1)) = (l - st) * (n / 2) + stepsFrom n l (afterStages m) := by
  unfold stageStart
  split
  · next hst =>
    have hstages : (l - st) * (n / 2) = n / 2 + (l - (st + 1)) * (n / 2) := by
      rw [Nat.add_comm, ← Nat.succ_mul]
      congr 1
      omega
    rw [hstages]
    cases m with
    | none => exact absurd rfl hm
    | fft => rfl
    | ifft => exact (Nat.add_assoc ..).symm
  · next hst => rw [Nat.sub_eq_zero_of_le (by omega), Nat.zero_mul, Nat.zero_add]

/-- The steps after a phase are those from the start of the phase that follows it. -/
theorem stepsAfter_of_phaseEnd {l : Nat} {q fin : Seq} (h : phaseEnd l q = some fin) (n : Nat) :
    stepsAfter n l q = stepsFrom n l fin := by
  obtain ⟨p, m, st, j⟩ := q
  cases m with
  | none => cases p <;> cases h <;> rfl
  | fft =>
    cases p with
    | rev => cases h; exact (stepsFrom_stageStart (m := .fft) (by decide) n l 0).symm
    | bfy => cases h; exact (stepsFrom_stageStart (m := .fft) (by decide) n l st).symm
    | idle | cnj1 | cnj2 | scl => cases h
  | ifft =>
    cases p with
    | rev => cases h; exact (stepsFrom_stageStart (m := .ifft) (by decide) n l 0).symm
    | bfy => cases h; exact (stepsFrom_stageStart (m := .ifft) (by decide) n l st).symm
    | cnj1 | cnj2 | scl => cases h; rfl
    | idle => cases h

/-- One step of a phase is one step fewer to go. -/
theorem stepsFrom_advance {n l : Nat} {q fin : Seq} (hq : SeqRuns n l q) (h : phaseEnd l q = some fin) :
    stepsFrom n l q = stepsFrom n l (advance n q fin) + 1 := by
  have hphase := hq.phase_ne_idle
  obtain ⟨hrange, -⟩ := hq
  have hj : q.j < phaseLength n q := by
    simp only [seqInRange, Bool.and_eq_true, decide_eq_true_eq] at hrange
    exact hrange.2
  have hleft : stepsFrom n l q = phaseLength n q - q.j + stepsAfter n l q := if_neg hphase
  unfold advance
  split
  · have hnext : stepsFrom n l { q with j := q.j + 1 } = phaseLength n q - (q.j + 1) + stepsAfter n l q :=
      if_neg hphase
    omega
  · rw [hleft, stepsAfter_of_phaseEnd h]
    omega

/-- The engine steps the FBU has to go until it is idle. -/
def Fbu.stepsLeft (s : Fbu S V) : Nat := stepsFrom s.len (log2 s.len) s.seq

theorem stepsLeft_idle (hb : s.busy = false) : s.stepsLeft = 0 := if_pos (bne_eq_false_iff_eq.1 hb)

theorem stepsLeft_engineStep (h : engineStep B s = .next t) : s.stepsLeft = t.stepsLeft + 1 := by
  have hlen : t.len = s.len := len_congr (engineStep_registers h).1
  obtain ⟨hrun, fin, hfin, ht⟩ := engineStep_effect h
  obtain ⟨-, -, hrange⟩ := runnable_iff.1 hrun
  have hseq : t.seq = advance s.len s.seq fin := congrArg Fbu.seq ht
  rw [Fbu.stepsLeft, Fbu.stepsLeft, hlen, hseq]
  exact stepsFrom_advance ⟨hrange, by rw [hfin]; rfl⟩ hfin

theorem FbuInv.engineStep_answers (h : FbuInv B s) (hb : s.busy = true) : Answers (engineStep B s) := by
  obtain ⟨-, -, -, -, hseq⟩ := h
  exact SeqOk.engineStep_answers hseq hb

/-- The engine is idle after exactly the steps it has to go: while it is busy it has a step, which is one of them. -/
theorem FbuInv.engineRun_stepsLeft {k : Nat} (h : FbuInv B s) (hk : s.stepsLeft = k) :
    ∃ t, engineRun B k s = .next t ∧ t.busy = false := by
  induction k generalizing s with
  | zero =>
    refine ⟨s, rfl, Bool.eq_false_iff.2 fun hb => ?_⟩
    obtain ⟨t, ht⟩ := FbuInv.engineStep_answers h hb
    have hstep := stepsLeft_engineStep ht
    omega
  | succ k ih =>
    have hb : s.busy = true := by
      by_contra hb
      have hidle := stepsLeft_idle (Bool.eq_false_iff.2 hb)
      omega
    obtain ⟨t, ht⟩ := FbuInv.engineStep_answers h hb
    have hstep := stepsLeft_engineStep ht
    rw [engineRun, ht]
    exact ih (engineStep_inv hb ht h) (by omega)

/-- Settles O40: the steps to go are at most those of `IFFT` on the frame, which lies within the memory. -/
theorem busyEngineBecomesIdle : Obligations.BusyEngineBecomesIdle := by
  intro S V B s h hb
  obtain ⟨t, hrun, hidle⟩ := FbuInv.engineRun_stepsLeft h rfl
  obtain ⟨-, hle, -, -, hseq⟩ := h
  rw [SeqOk, if_pos hb] at hseq
  obtain ⟨l, hlen, hl⟩ := exists_hasLength (runnable_iff.1 hseq.1).1 hle
  refine ⟨_, t, ?_, hrun, hidle⟩
  calc s.stepsLeft ≤ 4 * s.len + log2 s.len * (s.len / 2) := stepsFrom_le _ _ _
    _ ≤ 4 * B.nmax + B.logNMax * (B.nmax / 2) := by
      have hlog : log2 s.len ≤ B.logNMax := by rwa [hlen, log2_two_pow]
      gcongr

end Sys2Proof.Machine
end
